-- ==== Sys2Proof/Word.lean ====
section
/-! DEFINITION. The word types of SWDB and the plainest helpers on them (00_scope.md R7, R10). -/

namespace Sys2Proof

/-- A byte of the frame buffer. -/
abbrev Byte := BitVec 8

/-- A register of the window: 32 bits (00_scope.md R7). -/
abbrev Word := BitVec 32

/-- A one-bit value as a 32-bit word, `zext_32` of 00_scope.md R11. -/
def Word.ofBit (b : Bool) : Word := (BitVec.ofBool b).setWidth 32

/-- A natural number below `2^32` as a word, `zext_32` of 00_scope.md R11. -/
def Word.ofNat (n : Nat) : Word := BitVec.ofNat 32 n

/-- A byte as a word, `zext_32` of 00_scope.md R11. -/
def Word.ofByte (b : Byte) : Word := b.setWidth 32

end Sys2Proof
end

