-- ==== Sys2Proof/Config.lean ====
section
/-! DEFINITION. What an implementation of SWDB fixes, and the values the spec leaves free. Every opaque constant below has no
body a proof can see, so a statement about it holds whatever its value is (00_scope.md R8, 40_common.md R157, 93 K9, K17 to K22). -/

namespace Sys2Proof

/-- The two open-drain lines (20_memory.md R81, R83; 00_scope.md R14). -/
inductive Line
  /-- The single-wire bus. -/
  | ow
  /-- The pulse-width sensor line. -/
  | pw
deriving DecidableEq, Repr

namespace Config

/-- `CLK_PER_US - 1`, free (00_scope.md R8: an integer, at least 1). -/
opaque clkPerUsLessOne : Nat

/-- `CLK_PER_US`: clock cycles per tick of the timebase (00_scope.md R8). -/
def clkPerUs : Nat := clkPerUsLessOne + 1

/-- The free draw behind `ISSUE_LAT`. -/
opaque issueLatDraw : Nat

/-- `ISSUE_LAT`: cycles from accept to the earliest start of tick 0, from 1 to `CLK_PER_US` inclusive (00_scope.md R8). -/
def issueLat : Nat := issueLatDraw % clkPerUs + 1

/-- `COMPUTE_LAT - 1`, free (00_scope.md R8: at least 1). -/
opaque computeLatLessOne : Nat

/-- `COMPUTE_LAT`: cycles from accept to the completion of a compute command or of a command that fails its checks
(00_scope.md R8, 40_common.md R156). -/
def computeLat : Nat := computeLatLessOne + 1

/-- `SWDB_BASE / 256`, free (20_memory.md R94). -/
opaque swdbPage : Nat

/-- `SWDB_BASE`: the base address of the window, a multiple of 256 (20_memory.md R94). -/
def swdbBase : Nat := 256 * swdbPage

/-- The waveform oracle where the tape of the state says nothing: the level the outside world presents on a line, to the
command of a given draw number, at a tick of that command (40_common.md R157: "any function from ticks to {0, 1}"; 93 K9). -/
opaque ext : Line → Nat → Nat → Bool

/-- The level the outside world presents on a pin at a clock edge for which no port cycle is given, with SWDB released
(93 K21). -/
opaque pin : Line → Nat → Bool

/-- What a synchroniser stage (0 the first, 1 the second) of a line holds after the reset at a clock edge: "for the first 2
cycles after reset they are unspecified" (70_reset_and_hazards.md R392, 93 K22). -/
opaque syncAfterReset : Line → Nat → Nat → Bool

end Config
end Sys2Proof
end

