-- ==== Sys2Proof/Syntax.lean ====
section
/-! DEFINITION. The fourteen commands of SWDB (30_encoding.md R124), one constructor per row of spec/opcode_table.json. A command
whose SEL field means something carries those 4 bits as the table places them (R122); every other operand is in a register
(R127). -/

namespace Sys2Proof

/-- The commands of 30_encoding.md R124. -/
inductive Instr
  /-- `NOP` (40_common.md R160). -/
  | nop
  /-- `OW_RESET` (41_single_wire.md R202). -/
  | owReset
  /-- `OW_WRBIT` (41_single_wire.md R203). -/
  | owWrbit
  /-- `OW_RDBIT` (41_single_wire.md R204). -/
  | owRdbit
  /-- `OW_WRBYTE` (41_single_wire.md R205). -/
  | owWrbyte
  /-- `OW_RDBYTE i` (41_single_wire.md R206): `i` is the DBUF byte that receives the byte. -/
  | owRdbyte (i : BitVec 4)
  /-- `PW_SYNC` (42_pulse_width.md R247). -/
  | pwSync
  /-- `PW_BIT` (42_pulse_width.md R248). -/
  | pwBit
  /-- `PW_FRAME` (42_pulse_width.md R249): bit 0 of SEL is START, bits 3:1 must be 0 (30_encoding.md R122). -/
  | pwFrame (sel : BitVec 4)
  /-- `BCD_DEC` (43_bcd.md R281): SEL is the field code, 0 to 7 (R280). -/
  | bcdDec (sel : BitVec 4)
  /-- `BCD_ENC` (43_bcd.md R282): SEL is the field code, 0 to 7 (R280). -/
  | bcdEnc (sel : BitVec 4)
  /-- `DOW` (44_day_of_week.md R311). -/
  | dow
  /-- `CHK_CRC8 n` (45_checksum.md R331): `n` is the byte count. -/
  | chkCrc8 (n : BitVec 4)
  /-- `CHK_SUM8 n` (45_checksum.md R333): `n` is the byte count. -/
  | chkSum8 (n : BitVec 4)
deriving DecidableEq, Repr

end Sys2Proof
end

