-- ==== Sys2Proof/WellFormed.lean ====
section
/-! DEFINITION. Which commands have a legal SEL value (30_encoding.md R122). -/

namespace Sys2Proof

/-- The SEL values that 30_encoding.md R122 calls legal, for a command that carries one: 0 and 1 for `PW_FRAME`, 0 to 7 for the
BCD commands, all of 0 to 15 for the others. -/
def Instr.wellFormed : Instr → Bool
  | .nop => true
  | .owReset => true
  | .owWrbit => true
  | .owRdbit => true
  | .owWrbyte => true
  | .owRdbyte _ => true
  | .pwSync => true
  | .pwBit => true
  | .pwFrame sel => decide (sel.toNat ≤ 1)
  | .bcdDec sel => decide (sel.toNat ≤ 7)
  | .bcdEnc sel => decide (sel.toNat ≤ 7)
  | .dow => true
  | .chkCrc8 _ => true
  | .chkSum8 _ => true

/-- A command with a legal SEL value (30_encoding.md R122). -/
abbrev Instr.WellFormed (i : Instr) : Prop := i.wellFormed = true

end Sys2Proof
end

