-- ==== Sys2Proof/Decode.lean ====
section
/-! DEFINITION. The command word (30_encoding.md R120 to R126): its fields, the opcode map, the decoder and the encoder. -/

namespace Sys2Proof

/-- OP, bits 7:0 of the command word (30_encoding.md R120). -/
def cmdOp (w : Word) : BitVec 8 := w.extractLsb' 0 8

/-- SEL, bits 11:8 of the command word (30_encoding.md R120). -/
def cmdSel (w : Word) : BitVec 4 := w.extractLsb' 8 4

/-- RSV, bits 31:12 of the command word (30_encoding.md R120). -/
def cmdRsv (w : Word) : BitVec 20 := w.extractLsb' 12 20

/-- The command word with the given fields (30_encoding.md R120). -/
def cmdWord (op : BitVec 8) (sel : BitVec 4) (rsv : BitVec 20) : Word := rsv ++ sel ++ op

/-- Why a command word is reserved (30_encoding.md R123, R125). -/
inductive Reject
  /-- OP is not listed in R124. -/
  | reservedOp
  /-- RSV is not 0. -/
  | reservedBits
  /-- SEL holds a value R122 does not list for the OP. -/
  | illegalSel
deriving DecidableEq, Repr

/-- A command that takes no SEL: SEL must be 0 (30_encoding.md R122, "every other opcode"). -/
def decodePlain (sel : BitVec 4) (i : Instr) : Except Reject Instr :=
  if sel = 0#4 then .ok i else .error .illegalSel

/-- A command that takes a SEL: the values R122 lists for it. -/
def decodeSel (i : Instr) : Except Reject Instr :=
  if i.wellFormed then .ok i else .error .illegalSel

/-- The opcode map of 30_encoding.md R124 on OP and SEL. -/
def decodeOp (op : BitVec 8) (sel : BitVec 4) : Except Reject Instr :=
  match op.toNat with
  | 0x00 => decodePlain sel .nop
  | 0x01 => decodePlain sel .owReset
  | 0x02 => decodePlain sel .owWrbit
  | 0x03 => decodePlain sel .owRdbit
  | 0x04 => decodePlain sel .owWrbyte
  | 0x05 => decodeSel (.owRdbyte sel)
  | 0x10 => decodePlain sel .pwSync
  | 0x11 => decodePlain sel .pwBit
  | 0x12 => decodeSel (.pwFrame sel)
  | 0x20 => decodeSel (.bcdDec sel)
  | 0x21 => decodeSel (.bcdEnc sel)
  | 0x30 => decodePlain sel .dow
  | 0x40 => decodeSel (.chkCrc8 sel)
  | 0x41 => decodeSel (.chkSum8 sel)
  | _ => .error .reservedOp

/-- Decoding is total: every word is exactly one command or reserved (30_encoding.md R126). -/
def decode (w : Word) : Except Reject Instr :=
  if cmdRsv w = 0#20 then decodeOp (cmdOp w) (cmdSel w) else .error .reservedBits

/-- OP of each command (30_encoding.md R124). -/
def Instr.op : Instr → BitVec 8
  | .nop => 0x00#8
  | .owReset => 0x01#8
  | .owWrbit => 0x02#8
  | .owRdbit => 0x03#8
  | .owWrbyte => 0x04#8
  | .owRdbyte _ => 0x05#8
  | .pwSync => 0x10#8
  | .pwBit => 0x11#8
  | .pwFrame _ => 0x12#8
  | .bcdDec _ => 0x20#8
  | .bcdEnc _ => 0x21#8
  | .dow => 0x30#8
  | .chkCrc8 _ => 0x40#8
  | .chkSum8 _ => 0x41#8

/-- SEL of each command (30_encoding.md R122): 0 where the opcode gives it no meaning. -/
def Instr.sel : Instr → BitVec 4
  | .nop => 0#4
  | .owReset => 0#4
  | .owWrbit => 0#4
  | .owRdbit => 0#4
  | .owWrbyte => 0#4
  | .owRdbyte i => i
  | .pwSync => 0#4
  | .pwBit => 0#4
  | .pwFrame sel => sel
  | .bcdDec sel => sel
  | .bcdEnc sel => sel
  | .dow => 0#4
  | .chkCrc8 n => n
  | .chkSum8 n => n

/-- The command word of a command (30_encoding.md R120, R124). -/
def encode (i : Instr) : Word := cmdWord i.op i.sel 0#20

/-- One row of the opcode map of 30_encoding.md R124. -/
structure OpcodeRow where
  mnemonic : String
  pattern : Word
  mask : Word
deriving DecidableEq, Repr

/-- "The word encodes the command when `(word & mask) == match`" (30_encoding.md R124). -/
def OpcodeRow.admits (r : OpcodeRow) (w : Word) : Bool := w &&& r.mask == r.pattern

/-- The complete opcode map as 30_encoding.md R124 prints it. -/
def opcodeMap : List OpcodeRow :=
  [⟨"NOP", 0x00000000#32, 0xFFFFFFFF#32⟩,
   ⟨"OW_RESET", 0x00000001#32, 0xFFFFFFFF#32⟩,
   ⟨"OW_WRBIT", 0x00000002#32, 0xFFFFFFFF#32⟩,
   ⟨"OW_RDBIT", 0x00000003#32, 0xFFFFFFFF#32⟩,
   ⟨"OW_WRBYTE", 0x00000004#32, 0xFFFFFFFF#32⟩,
   ⟨"OW_RDBYTE", 0x00000005#32, 0xFFFFF0FF#32⟩,
   ⟨"PW_SYNC", 0x00000010#32, 0xFFFFFFFF#32⟩,
   ⟨"PW_BIT", 0x00000011#32, 0xFFFFFFFF#32⟩,
   ⟨"PW_FRAME", 0x00000012#32, 0xFFFFFEFF#32⟩,
   ⟨"BCD_DEC", 0x00000020#32, 0xFFFFF8FF#32⟩,
   ⟨"BCD_ENC", 0x00000021#32, 0xFFFFF8FF#32⟩,
   ⟨"DOW", 0x00000030#32, 0xFFFFFFFF#32⟩,
   ⟨"CHK_CRC8", 0x00000040#32, 0xFFFFF0FF#32⟩,
   ⟨"CHK_SUM8", 0x00000041#32, 0xFFFFF0FF#32⟩]

/-- The mnemonic of each command, as 30_encoding.md R124 spells it. -/
def Instr.mnemonic : Instr → String
  | .nop => "NOP"
  | .owReset => "OW_RESET"
  | .owWrbit => "OW_WRBIT"
  | .owRdbit => "OW_RDBIT"
  | .owWrbyte => "OW_WRBYTE"
  | .owRdbyte _ => "OW_RDBYTE"
  | .pwSync => "PW_SYNC"
  | .pwBit => "PW_BIT"
  | .pwFrame _ => "PW_FRAME"
  | .bcdDec _ => "BCD_DEC"
  | .bcdEnc _ => "BCD_ENC"
  | .dow => "DOW"
  | .chkCrc8 _ => "CHK_CRC8"
  | .chkSum8 _ => "CHK_SUM8"

/-- The command the decoder reads from the table's word (spec/opcode_table.json numbers its bits as 30_encoding.md R120 does;
every row has 32 bits, and bits above `nbits` are 0). -/
def decodeTableWord (nbits w : Nat) : Option Instr :=
  (decode (BitVec.ofNat 32 (w % 2 ^ nbits))).toOption

end Sys2Proof
end

