-- ==== Sys2Proof/Machine/State.lean ====
section
/-! DEFINITION. The state of SWDB as plain data (10_state.md), its reset value (70_reset_and_hazards.md R390, R392), and the
reasons a step can stop. -/

namespace Sys2Proof.Machine

/-- The sequencer state (10_state.md R45). STATUS.BUSY is 1 exactly when it is `run`. -/
inductive Seq
  | idle
  | run
deriving DecidableEq, Repr

/-- The values of STATUS.ERR (60_exceptions.md R350). Code 7 is never produced (93 K27). -/
inductive ErrCode
  | ok
  | nodev
  | corrupt
  | timeout
  | invalid
  | badcfg
  | illegal
deriving DecidableEq, Repr

/-- A write recorded with `stage` (00_scope.md R15): RESULT, or one byte of DBUF. -/
inductive Staged
  | result (v : Word)
  | dbuf (i : BitVec 4) (b : Byte)
deriving DecidableEq, Repr

/-- Where the running command stands between accept and completion (40_common.md R156). The model's own field, DESIGN CHOICE
(assumption 2). -/
inductive Phase
  /-- No tick belongs to the command: a compute command, or one that fails its checks. -/
  | untimed
  /-- A line command before tick 0; `edges` clock edges are left, the last of them the boundary where tick 0 starts. -/
  | issue (edges : Nat)
  /-- A line command in tick `State.tick`. -/
  | ticking
deriving DecidableEq, Repr

/-- The latched set `L` (10_state.md R46, 40_common.md R152). -/
structure Latch where
  op : BitVec 8
  sel : BitVec 4
  rsv : BitVec 20
  arg0 : Word
  arg1 : Word
  toz : Bool
  tRstl : BitVec 16
  tRrec : BitVec 16
  tPds : BitVec 8
  tRl : BitVec 8
  tRs : BitVec 8
  tRslot : BitVec 8
  tW1l : BitVec 8
  tW1h : BitVec 8
  tW0l : BitVec 8
  tW0h : BitVec 8
  tThr : BitVec 8
  tPwmax : BitVec 8
  tSync : BitVec 8
  tRel : BitVec 8
  tStart : BitVec 16
  dbuf : Vector Byte 16
deriving DecidableEq, Repr

/-- The two flip-flops of one pin's synchroniser (10_state.md R47). -/
structure Synchroniser where
  first : Bool
  second : Bool
deriving DecidableEq, Repr

/-- The input ports of one clock cycle (20_memory.md R80). `owIn` and `pwIn` are the levels the outside world presents with
SWDB released; the open-drain line is low when either side pulls it low (R81). -/
structure PortCycle where
  rstN : Bool
  rd : Bool
  wr : Bool
  addr : BitVec 6
  wdata : Word
  owIn : Bool
  pwIn : Bool
deriving DecidableEq, Repr

/-- One command's line levels from its tick 0 on, as runs of a level and how many ticks it lasts (assumption 3). -/
abbrev Wave := List (Bool × Nat)

/-- The whole state. The first block is the register window of 10_state.md R30, the second the hidden state of R45 to R51, the
third the model's own fields (inputs and the countdown to completion). -/
structure State where
  /-- CTRL.IE (10_state.md R32). -/
  ie : Bool
  /-- CTRL.TOZ (10_state.md R32). -/
  toz : Bool
  /-- STATUS.DONE (10_state.md R33). -/
  done : Bool
  /-- STATUS.OVF (10_state.md R33). -/
  ovf : Bool
  /-- STATUS.WBUSY (10_state.md R33). -/
  wbusy : Bool
  /-- STATUS.ERR (10_state.md R33). -/
  err : ErrCode
  /-- CMD (10_state.md R34). -/
  cmd : Word
  /-- ARG0 (10_state.md R35). -/
  arg0 : Word
  /-- ARG1 (10_state.md R36). -/
  arg1 : Word
  /-- RESULT (10_state.md R37). -/
  result : Word
  /-- LINE.OW_DRV (10_state.md R38). -/
  owDrv : Bool
  /-- LINE.PW_DRV (10_state.md R38). -/
  pwDrv : Bool
  /-- DBUF[0..15] (10_state.md R39). -/
  dbuf : Vector Byte 16
  /-- TIM0 (10_state.md R40). -/
  tim0 : Word
  /-- TIM1 (10_state.md R41). -/
  tim1 : Word
  /-- TIM2 (10_state.md R42). -/
  tim2 : Word
  /-- TIM3 (10_state.md R43). -/
  tim3 : Word
  /-- TIM4.T_START; TIM4[31:16] is reserved (10_state.md R44). -/
  tStart : BitVec 16
  /-- `seq` (10_state.md R45). -/
  seq : Seq
  /-- `L` (10_state.md R46), meaningful only in RUN. -/
  latch : Latch
  /-- `tick` (10_state.md R45). -/
  tick : Nat
  /-- `staged` (10_state.md R45). -/
  staged : List Staged
  /-- `ovf_seen` (40_common.md R151). -/
  ovfSeen : Bool
  /-- `seq_drv_OW` (10_state.md R45). -/
  seqDrvOw : Bool
  /-- `seq_drv_PW` (10_state.md R45). -/
  seqDrvPw : Bool
  /-- The timebase prescaler (10_state.md R51). -/
  prescaler : Nat
  /-- The synchroniser of the OW pin (10_state.md R47). -/
  owSync : Synchroniser
  /-- The synchroniser of the PW pin (10_state.md R47). -/
  pwSync : Synchroniser
  /-- `reg_rdata` of the last read (20_memory.md R80, R84; assumption 11). -/
  rdata : Word
  /-- Where the running command stands (assumption 2). -/
  phase : Phase
  /-- Clock edges left before the completion edge of the running command (assumption 2). -/
  wait : Nat
  /-- The coming port cycles; none listed means a quiet host (assumption 12). -/
  port : List PortCycle
  /-- The line levels presented to each command, by draw number; what is not listed is free (assumption 3). -/
  waves : List Wave
  /-- The draw number of the running command (assumption 3). -/
  draw : Nat
  /-- The number of the coming clock edge, the index of the free pin levels (assumption 4). -/
  clock : Nat
deriving DecidableEq, Repr

/-- SWDB has no fault: "an error is a code in STATUS.ERR at completion, never a trap" (60_exceptions.md, opening and R352), and
"no behaviour of SWDB is stuck" (93_implementation_defined.md section 1). So no constructor stands here. -/
inductive Fault
deriving DecidableEq, Repr

/-- Why a step is refused. -/
inductive Refusal
  /-- Raised by no meaning of this model: every command has one. It is the name `exec` would reject an unmodelled command by.
  Safe. -/
  | notModelled (mnemonic : String)
  /-- Raised by `step` on a port cycle that asserts `reg_rd` and `reg_wr` together: "a model refuses such a cycle"
  (20_memory.md R84, 93 K28). Safe. -/
  | readAndWrite
deriving DecidableEq, Repr

/-- The latched set before any command was accepted: the spec gives none ("meaningful only in RUN", 10_state.md R45). DESIGN
CHOICE (assumption 8), unsafe: a claim must not rest on it. -/
def Latch.reset : Latch where
  op := 0
  sel := 0
  rsv := 0
  arg0 := 0
  arg1 := 0
  toz := false
  tRstl := 0
  tRrec := 0
  tPds := 0
  tRl := 0
  tRs := 0
  tRslot := 0
  tW1l := 0
  tW1h := 0
  tW0l := 0
  tW0h := 0
  tThr := 0
  tPwmax := 0
  tSync := 0
  tRel := 0
  tStart := 0
  dbuf := Vector.replicate 16 0

/-- A synchroniser right after the reset at a clock edge: free values (70_reset_and_hazards.md R392, 93 K22; assumption 5). -/
def Synchroniser.afterReset (x : Line) (clock : Nat) : Synchroniser :=
  ⟨Config.syncAfterReset x 0 clock, Config.syncAfterReset x 1 clock⟩

/-- The machine right after reset (70_reset_and_hazards.md R390, R392; the tables of 10_state.md R30 to R51). -/
def State.reset : State where
  ie := false
  toz := false
  done := false
  ovf := false
  wbusy := false
  err := .ok
  cmd := 0
  arg0 := 0
  arg1 := 0
  result := 0
  owDrv := false
  pwDrv := false
  dbuf := Vector.replicate 16 0
  tim0 := 0x019A01E0#32
  tim1 := 0x420A0346#32
  tim2 := 0x0541370A#32
  tim3 := 0x28646428#32
  tStart := 0x4E20#16
  seq := .idle
  latch := Latch.reset
  tick := 0
  staged := []
  ovfSeen := false
  seqDrvOw := false
  seqDrvPw := false
  prescaler := 0
  owSync := Synchroniser.afterReset .ow 0
  pwSync := Synchroniser.afterReset .pw 0
  rdata := 0
  phase := .untimed
  wait := 0
  port := []
  waves := []
  draw := 0
  clock := 0

end Sys2Proof.Machine
end

