-- ==== Sys2Proof/Machine/Flags.lean ====
section
/-! DEFINITION. Every STATUS and interrupt computation of SWDB (10_state.md R33, 40_common.md R151 and R154,
60_exceptions.md R350 and R353 to R355). -/

namespace Sys2Proof.Machine

/-- The 3-bit code of STATUS.ERR (60_exceptions.md R350). -/
def ErrCode.code : ErrCode → BitVec 3
  | .ok => 0#3
  | .nodev => 1#3
  | .corrupt => 2#3
  | .timeout => 3#3
  | .invalid => 4#3
  | .badcfg => 5#3
  | .illegal => 6#3

/-- STATUS.BUSY: "1 exactly when `seq = RUN`" (10_state.md R45). -/
def State.busy (s : State) : Bool := decide (s.seq = .run)

/-- STATUS as the host reads it (10_state.md R33): ERR at 10:8, WBUSY 3, OVF 2, DONE 1, BUSY 0, reserved bits 0. -/
def State.statusWord (s : State) : Word :=
  0#21 ++ s.err.code ++ 0#4 ++ BitVec.ofBool s.wbusy ++ BitVec.ofBool s.ovf ++ BitVec.ofBool s.done ++ BitVec.ofBool s.busy

/-- A host write to STATUS: DONE, OVF and WBUSY are cleared by writing 1; BUSY and ERR are read-only (10_state.md R33). -/
def State.writeStatus (v : Word) (s : State) : State :=
  { s with
    done := s.done && !v.getLsbD 1
    ovf := s.ovf && !v.getLsbD 2
    wbusy := s.wbusy && !v.getLsbD 3 }

/-- A host write dropped because BUSY = 1 (10_state.md R48). -/
def State.dropWrite (s : State) : State := { s with wbusy := true }

/-- The STATUS update of accept: DONE and ERR are cleared, BUSY rises, OVF and WBUSY stay (40_common.md R151). -/
def State.acceptFlags (s : State) : State := { s with seq := .run, done := false, err := .ok }

/-- The STATUS update of completion with a code: OVF takes in `ovf_seen`, ERR the code, DONE is set, BUSY falls
(40_common.md R154). -/
def State.completionFlags (code : ErrCode) (s : State) : State :=
  { s with ovf := s.ovf || s.ovfSeen, err := code, done := true, seq := .idle }

/-- `irq = CTRL.IE & STATUS.DONE` (60_exceptions.md R353). -/
def State.irq (s : State) : Bool := s.ie && s.done

end Sys2Proof.Machine
end

