-- ==== Sys2Proof/Machine/Operands.lean ====
section
/-! DEFINITION. The fields of the timing registers (10_state.md R40 to R44), the latched set (40_common.md R152) and the operands
each command reads from it (30_encoding.md R127). -/

namespace Sys2Proof.Machine

/-- TIM0[15:0], reset low time (10_state.md R40). -/
def State.tRstl (s : State) : BitVec 16 := s.tim0.extractLsb' 0 16

/-- TIM0[31:16], wait after the presence sample (10_state.md R40). -/
def State.tRrec (s : State) : BitVec 16 := s.tim0.extractLsb' 16 16

/-- TIM1[7:0], from release to presence sample (10_state.md R41). -/
def State.tPds (s : State) : BitVec 8 := s.tim1.extractLsb' 0 8

/-- TIM1[15:8], read-slot low time (10_state.md R41). -/
def State.tRl (s : State) : BitVec 8 := s.tim1.extractLsb' 8 8

/-- TIM1[23:16], from release to the read sample (10_state.md R41). -/
def State.tRs (s : State) : BitVec 8 := s.tim1.extractLsb' 16 8

/-- TIM1[31:24], whole read-slot length (10_state.md R41). -/
def State.tRslot (s : State) : BitVec 8 := s.tim1.extractLsb' 24 8

/-- TIM2[7:0], write-1 low time (10_state.md R42). -/
def State.tW1l (s : State) : BitVec 8 := s.tim2.extractLsb' 0 8

/-- TIM2[15:8], write-1 released time (10_state.md R42). -/
def State.tW1h (s : State) : BitVec 8 := s.tim2.extractLsb' 8 8

/-- TIM2[23:16], write-0 low time (10_state.md R42). -/
def State.tW0l (s : State) : BitVec 8 := s.tim2.extractLsb' 16 8

/-- TIM2[31:24], write-0 released time (10_state.md R42). -/
def State.tW0h (s : State) : BitVec 8 := s.tim2.extractLsb' 24 8

/-- TIM3[7:0], pulse-width threshold (10_state.md R43). -/
def State.tThr (s : State) : BitVec 8 := s.tim3.extractLsb' 0 8

/-- TIM3[15:8], pulse-width measurement bound (10_state.md R43). -/
def State.tPwmax (s : State) : BitVec 8 := s.tim3.extractLsb' 8 8

/-- TIM3[23:16], budget of each sync wait and each bit-start wait (10_state.md R43). -/
def State.tSync (s : State) : BitVec 8 := s.tim3.extractLsb' 16 8

/-- TIM3[31:24], released time after the start signal (10_state.md R43). -/
def State.tRel (s : State) : BitVec 8 := s.tim3.extractLsb' 24 8

/-- `latch(w)` (40_common.md R152): what the accept of the word `w` copies. -/
def State.latchOf (w : Word) (s : State) : Latch where
  op := cmdOp w
  sel := cmdSel w
  rsv := cmdRsv w
  arg0 := s.arg0
  arg1 := s.arg1
  toz := s.toz
  tRstl := s.tRstl
  tRrec := s.tRrec
  tPds := s.tPds
  tRl := s.tRl
  tRs := s.tRs
  tRslot := s.tRslot
  tW1l := s.tW1l
  tW1h := s.tW1h
  tW0l := s.tW0l
  tW0h := s.tW0h
  tThr := s.tThr
  tPwmax := s.tPwmax
  tSync := s.tSync
  tRel := s.tRel
  tStart := s.tStart
  dbuf := s.dbuf

/-- The command word the latched set stands for: `L.RSV`, `L.SEL` and `L.OP` put back together (40_common.md R152). -/
def Latch.word (L : Latch) : Word := cmdWord L.op L.sel L.rsv

/-- `b` of OW_WRBIT: `L.ARG0[0]` (30_encoding.md R127). -/
def Latch.writeBit (L : Latch) : Bool := L.arg0.getLsbD 0

/-- `v` of OW_WRBYTE: `L.ARG0[7:0]` (30_encoding.md R127). -/
def Latch.writeByte (L : Latch) : Byte := L.arg0.extractLsb' 0 8

/-- `b` of BCD_DEC: `L.ARG0[7:0]` (30_encoding.md R127). -/
def Latch.bcdByte (L : Latch) : Nat := (L.arg0.extractLsb' 0 8).toNat

/-- `v` of BCD_ENC: all 32 bits of `L.ARG0` (30_encoding.md R127). -/
def Latch.decimal (L : Latch) : Nat := L.arg0.toNat

/-- `y` of DOW: all 32 bits of `L.ARG0` (30_encoding.md R127). -/
def Latch.year (L : Latch) : Nat := L.arg0.toNat

/-- `m` of DOW: `L.ARG1[7:0]` (30_encoding.md R127). -/
def Latch.month (L : Latch) : Nat := (L.arg1.extractLsb' 0 8).toNat

/-- `d` of DOW: `L.ARG1[15:8]` (30_encoding.md R127). -/
def Latch.day (L : Latch) : Nat := (L.arg1.extractLsb' 8 8).toNat

/-- `L.DBUF[0 .. n-1]`, the bytes a checksum command covers (45_checksum.md R331, R333). -/
def Latch.frame (L : Latch) (n : BitVec 4) : List Byte := L.dbuf.toList.take n.toNat

/-- `L.DBUF[n]`, the check byte (30_encoding.md R122). -/
def Latch.checkByte (L : Latch) (n : BitVec 4) : Byte := L.dbuf[n.toFin]

end Sys2Proof.Machine
end

