-- ==== Sys2Proof/Machine/Ops.lean ====
section
/-! DEFINITION. The operations the commands share: the frame buffer, the line levels, staging, and completion with a code
(40_common.md R154), which is the one way an error is taken (60_exceptions.md R352). -/

namespace Sys2Proof.Machine

/-- Byte `i` of the frame buffer takes the value `b` (10_state.md R39). -/
def State.setDbuf (i : BitVec 4) (b : Byte) (s : State) : State := { s with dbuf := s.dbuf.set i.toFin b i.toFin.isLt }

/-- Byte `i` of the frame buffer (10_state.md R39). -/
def State.dbufByte (s : State) (i : BitVec 4) : Byte := s.dbuf[i.toFin]

/-- The word DBUF`k`: byte `4k + j` in byte lane `j` (10_state.md R39, 20_memory.md R90). -/
def State.dbufWord (s : State) (k : BitVec 2) : Word :=
  s.dbufByte (k ++ 3#2) ++ s.dbufByte (k ++ 2#2) ++ s.dbufByte (k ++ 1#2) ++ s.dbufByte (k ++ 0#2)

/-- A host write of the word DBUF`k`, byte lane by byte lane (10_state.md R39, 20_memory.md R90). -/
def State.setDbufWord (k : BitVec 2) (v : Word) (s : State) : State :=
  (((s.setDbuf (k ++ 0#2) (v.extractLsb' 0 8)).setDbuf (k ++ 1#2) (v.extractLsb' 8 8)).setDbuf (k ++ 2#2)
    (v.extractLsb' 16 8)).setDbuf (k ++ 3#2) (v.extractLsb' 24 8)

/-- LINE.X_DRV of a line (10_state.md R38). -/
def State.manualDrive (s : State) : Line → Bool
  | .ow => s.owDrv
  | .pw => s.pwDrv

/-- `seq_drv_X` of a line (10_state.md R45). -/
def State.seqDrive (s : State) : Line → Bool
  | .ow => s.seqDrvOw
  | .pw => s.seqDrvPw

/-- The drive outputs `ow_drive_low` and `pw_drive_low` (20_memory.md R82). -/
def State.driveLow (s : State) (x : Line) : Bool := s.manualDrive x || s.seqDrive x

/-- The level of a wave at a tick, where the wave gives one (assumption 3). -/
def Wave.levelAt : Wave → Nat → Option Bool
  | [], _ => none
  | (level, ticks) :: rest, t => if t < ticks then some level else Wave.levelAt rest (t - ticks)

/-- The waveform oracle `ext_X(t)` of the running command: the tape's level where it gives one, else a free draw
(40_common.md R157; assumption 3). -/
def State.ext (s : State) (x : Line) (t : Nat) : Bool :=
  (((s.waves[s.draw]?).bind fun w => Wave.levelAt w t)).getD (Config.ext x s.draw t)

/-- `line_X(t) = ext_X(t) & ~drv_X(t)` (40_common.md R157), for a command that drives `drv` by itself. -/
def State.lineLevel (s : State) (x : Line) (drv : Nat → Bool) (t : Nat) : Bool := s.ext x t && !drv t

/-- How a bounded wait ends (40_common.md R159). -/
inductive WaitEnd
  | found (t : Nat)
  | expired (last : Nat)
deriving DecidableEq, Repr

/-- `WaitLevel(X, lvl, s, B)` on the levels `line`: the ticks `s` to `s + B - 1` in order, up to the first with the level
(40_common.md R159). The spec has `B >= 1`; no command reaches `B = 0`, which its timing check excludes (60_exceptions.md R351). -/
def waitLevel (line : Nat → Bool) (lvl : Bool) (s : Nat) : Nat → WaitEnd
  | 0 => .expired (s - 1)
  | b + 1 => if line s = lvl then .found s else waitLevel line lvl (s + 1) b

/-- One staged write takes effect (40_common.md R154). -/
def Staged.apply : Staged → State → State
  | .result v, s => { s with result := v }
  | .dbuf i b, s => s.setDbuf i b

/-- Every staged write takes effect (40_common.md R154). -/
def State.commit (ws : List Staged) (s : State) : State := ws.foldl (fun t w => w.apply t) s

/-- The codes whose completion commits the staged writes (40_common.md R154). -/
def ErrCode.commits : ErrCode → Bool
  | .ok => true
  | .corrupt => true
  | .nodev => false
  | .timeout => false
  | .invalid => false
  | .badcfg => false
  | .illegal => false

/-- `complete(E)` (40_common.md R154). No command runs after it, so nothing is staged any more (assumption 9); the next command
has the next draw number (assumption 3). -/
def State.complete (code : ErrCode) (s : State) : State :=
  { ((if code.commits then s.commit s.staged else s).completionFlags code) with
    seqDrvOw := false
    seqDrvPw := false
    staged := []
    ovfSeen := false
    draw := s.draw + 1 }

/-- What the run of a command ends with: its code, the writes it staged, `ovf_seen`, and its duration in ticks; `none` where the
command has no tick (40_common.md R153, R156). -/
structure Report where
  code : ErrCode
  staged : List Staged
  ovfSeen : Bool
  ticks : Option Nat
deriving DecidableEq, Repr

/-- `raise E` of a command that has no tick: a failed check, or a compute command (00_scope.md R15, 40_common.md R156). -/
def Report.raise (code : ErrCode) : Report := ⟨code, [], false, none⟩

/-- A compute command that ends with a code and the given staged writes (40_common.md R156). -/
def Report.compute (code : ErrCode) (staged : List Staged) : Report := ⟨code, staged, false, none⟩

/-- The checks that open every line command on line `x`, after the encoding's: manual drive, then timing, both BADCFG before
tick 0 (40_common.md R153, 60_exceptions.md R351). -/
def State.lineCommand (s : State) (x : Line) (timingLegal : Bool) (body : Report) : Report :=
  if s.manualDrive x then .raise .badcfg else if timingLegal then body else .raise .badcfg

/-- The running command completes with its report (40_common.md R154). -/
def State.finish (r : Report) (s : State) : State :=
  State.complete r.code { s with staged := r.staged, ovfSeen := r.ovfSeen }

end Sys2Proof.Machine
end

