-- ==== Sys2Proof/Machine/Bcd.lean ====
section
/-! DEFINITION. The BCD encoder and decoder (43_bcd.md). -/

namespace Sys2Proof.Machine

/-- The field codes of 43_bcd.md R280. -/
inductive BcdField
  | raw
  | sec
  | min
  | hour
  | date
  | month
  | wday
  | year
deriving DecidableEq, Repr

/-- The field a SEL value names; SEL[3] = 1 names none (43_bcd.md R280). -/
def BcdField.ofSel (sel : BitVec 4) : Option BcdField :=
  match sel.toNat with
  | 0 => some .raw
  | 1 => some .sec
  | 2 => some .min
  | 3 => some .hour
  | 4 => some .date
  | 5 => some .month
  | 6 => some .wday
  | 7 => some .year
  | _ => none

/-- The least decimal value of a field (43_bcd.md R280). -/
def BcdField.lo : BcdField → Nat
  | .raw => 0
  | .sec => 0
  | .min => 0
  | .hour => 0
  | .date => 1
  | .month => 1
  | .wday => 1
  | .year => 2000

/-- The greatest decimal value of a field (43_bcd.md R280). -/
def BcdField.hi : BcdField → Nat
  | .raw => 99
  | .sec => 59
  | .min => 59
  | .hour => 23
  | .date => 31
  | .month => 12
  | .wday => 7
  | .year => 2099

/-- `v` is inside `range(f)` (43_bcd.md R280). -/
def BcdField.inRange (f : BcdField) (v : Nat) : Bool := decide (f.lo ≤ v ∧ v ≤ f.hi)

/-- `bcd_to_dec` (43_bcd.md, opening; R281). -/
def bcdToDec (b : Nat) : Nat := b / 16 * 10 + b % 16

/-- `dec_to_bcd` (43_bcd.md, opening; R282). -/
def decToBcd (v : Nat) : Nat := v / 10 * 16 + v % 10

/-- The body of BCD_DEC on a byte: the decimal value, or none where it raises INVALID (43_bcd.md R281). -/
def bcdDecode (f : BcdField) (byte : Nat) : Option Nat :=
  let b := if f = .sec then byte % 128 else byte
  if 9 < b / 16 ∨ 9 < b % 16 then none
  else
    let v := if f = .year then 2000 + bcdToDec b else bcdToDec b
    if f.inRange v then some v else none

/-- The body of BCD_ENC on a value: the BCD byte, or none where it raises INVALID (43_bcd.md R282). -/
def bcdEncode (f : BcdField) (value : Nat) : Option Nat :=
  if f.inRange value then
    let b := decToBcd (if f = .year then value - 2000 else value)
    some (if f = .sec then b % 128 else b)
  else none

/-- The end of a compute command whose body gives a value for RESULT, or raises INVALID (43_bcd.md R281, R282;
44_day_of_week.md R311). -/
def resultOrInvalid : Option Nat → Report
  | some v => .compute .ok [.result (Word.ofNat v)]
  | none => .raise .invalid

/-- The run of BCD_DEC; SEL[3] = 1 is ILLEGAL (43_bcd.md R281). -/
def bcdDecReport (sel : BitVec 4) (s : State) : Report :=
  match BcdField.ofSel sel with
  | some f => resultOrInvalid (bcdDecode f s.latch.bcdByte)
  | none => .raise .illegal

/-- The run of BCD_ENC; SEL[3] = 1 is ILLEGAL (43_bcd.md R282). -/
def bcdEncReport (sel : BitVec 4) (s : State) : Report :=
  match BcdField.ofSel sel with
  | some f => resultOrInvalid (bcdEncode f s.latch.decimal)
  | none => .raise .illegal

/-- BCD_DEC (43_bcd.md R281). -/
def execBcdDec (sel : BitVec 4) (s : State) : Host.Outcome State Fault Refusal := .next (s.finish (bcdDecReport sel s))

/-- BCD_ENC (43_bcd.md R282). -/
def execBcdEnc (sel : BitVec 4) (s : State) : Host.Outcome State Fault Refusal := .next (s.finish (bcdEncReport sel s))

end Sys2Proof.Machine
end

