-- ==== Sys2Proof/Machine/Checksum.lean ====
section
/-! DEFINITION. The 8-bit checksum validators (45_checksum.md). -/

namespace Sys2Proof.Machine

/-- One of the eight steps of the CRC register `c` for the low bit of `x` (45_checksum.md R330). -/
def crcShift (c x : Byte) : Byte := if (c ^^^ x).getLsbD 0 then (c >>> 1) ^^^ 0x8C#8 else c >>> 1

/-- `n` steps of the CRC register, least-significant bit of the byte first (45_checksum.md R330). -/
def crcBits : Nat → Byte → Byte → Byte
  | 0, c, _ => c
  | n + 1, c, x => crcBits n (crcShift c x) (x >>> 1)

/-- The CRC register after one byte (45_checksum.md R330). -/
def crcByte (c x : Byte) : Byte := crcBits 8 c x

/-- `crc8` (45_checksum.md R330). -/
def crc8 (bytes : List Byte) : Byte := bytes.foldl crcByte 0#8

/-- `sum8` (45_checksum.md R332). -/
def sum8 (bytes : List Byte) : Byte := BitVec.ofNat 8 ((bytes.map BitVec.toNat).sum % 256)

/-- The end of a checksum command: RESULT is staged, and the code says whether the check byte agrees
(45_checksum.md R331, R333). -/
def checkAgainst (c check : Byte) : Report :=
  .compute (if c = check then .ok else .corrupt) [.result (Word.ofByte c)]

/-- The run of CHK_CRC8 (45_checksum.md R331). -/
def chkCrc8Report (n : BitVec 4) (s : State) : Report := checkAgainst (crc8 (s.latch.frame n)) (s.latch.checkByte n)

/-- The run of CHK_SUM8 (45_checksum.md R333). -/
def chkSum8Report (n : BitVec 4) (s : State) : Report := checkAgainst (sum8 (s.latch.frame n)) (s.latch.checkByte n)

/-- CHK_CRC8 (45_checksum.md R331). -/
def execChkCrc8 (n : BitVec 4) (s : State) : Host.Outcome State Fault Refusal := .next (s.finish (chkCrc8Report n s))

/-- CHK_SUM8 (45_checksum.md R333). -/
def execChkSum8 (n : BitVec 4) (s : State) : Host.Outcome State Fault Refusal := .next (s.finish (chkSum8Report n s))

end Sys2Proof.Machine
end

