-- ==== Sys2Proof/Machine/Common.lean ====
section
/-! DEFINITION. NOP (40_common.md R160). -/

namespace Sys2Proof.Machine

/-- The run of NOP: `complete(OK)`, no tick, no staged write (40_common.md R160). -/
def nopReport (_s : State) : Report := .compute .ok []

/-- NOP (40_common.md R160). -/
def execNop (s : State) : Host.Outcome State Fault Refusal := .next (s.finish (nopReport s))

end Sys2Proof.Machine
end

