-- ==== Sys2Proof/Machine/DayOfWeek.lean ====
section
/-! DEFINITION. The day-of-week calendar engine (44_day_of_week.md). -/

namespace Sys2Proof.Machine

/-- `h` of the formula for a month of 3 or more (44_day_of_week.md R310). -/
def zeller (y m d : Nat) : Nat :=
  (d + 13 * (m + 1) / 5 + y % 100 + y % 100 / 4 + y / 100 / 4 + 5 * (y / 100)) % 7

/-- `dow(y, m, d)`: January and February count as months 13 and 14 of the year before (44_day_of_week.md R310). -/
def dayOfWeek (y m d : Nat) : Nat :=
  ((if m < 3 then zeller (y - 1) (m + 12) d else zeller y m d) + 5) % 7 + 1

/-- The operands DOW accepts (44_day_of_week.md R311). -/
def dateAccepted (y m d : Nat) : Bool := decide ((1 ≤ y ∧ y ≤ 9999) ∧ (1 ≤ m ∧ m ≤ 12) ∧ (1 ≤ d ∧ d ≤ 31))

/-- The run of DOW (44_day_of_week.md R311). -/
def dowReport (s : State) : Report :=
  let L := s.latch
  resultOrInvalid (if dateAccepted L.year L.month L.day then some (dayOfWeek L.year L.month L.day) else none)

/-- DOW (44_day_of_week.md R311). -/
def execDow (s : State) : Host.Outcome State Fault Refusal := .next (s.finish (dowReport s))

end Sys2Proof.Machine
end

