-- ==== Sys2Proof/Machine/PulseWidth.lean ====
section
/-! DEFINITION. The pulse-width commands (42_pulse_width.md): the primitives of its section 1, and for each command the waveform it
drives on PW, the run of its body, and its meaning. -/

namespace Sys2Proof.Machine

/-- How one bit measurement ends (42_pulse_width.md R240). -/
inductive BitEnd
  /-- A bit, its measured width, and the tick where the next measurement starts. -/
  | bit (b : Bool) (d : Nat) (next : Nat)
  /-- The bound was hit; the tick where the next measurement starts. -/
  | overflow (next : Nat)
  /-- No rising edge within the budget; the last tick examined. -/
  | startTimeout (last : Nat)
deriving DecidableEq, Repr

/-- `MeasureBit(s)` (42_pulse_width.md R240): phase A waits for high, phase B polls the high pulse until low. -/
def measureBit (L : Latch) (line : Nat → Bool) (s : Nat) : BitEnd :=
  match waitLevel line true s L.tSync.toNat with
  | .expired e => .startTimeout e
  | .found r =>
    match waitLevel line false (r + 1) L.tPwmax.toNat with
    | .found q => .bit (decide (L.tThr.toNat < q - r)) (q - r) (q + 1)
    | .expired e => .overflow (e + 1)

/-- How the synchronisation phase ends (42_pulse_width.md R242). -/
inductive SyncEnd
  /-- The tick where the first bit measurement starts. -/
  | synced (next : Nat)
  /-- A wait expired; the last tick examined. -/
  | noDevice (last : Nat)
deriving DecidableEq, Repr

/-- `Sync(s)` (42_pulse_width.md R242): low, high, low, each wait bounded by T_SYNC. -/
def syncPhase (L : Latch) (line : Nat → Bool) (s : Nat) : SyncEnd :=
  match waitLevel line false s L.tSync.toNat with
  | .expired e => .noDevice e
  | .found t1 =>
    match waitLevel line true (t1 + 1) L.tSync.toNat with
    | .expired e => .noDevice e
    | .found t2 =>
      match waitLevel line false (t2 + 1) L.tSync.toNat with
      | .expired e => .noDevice e
      | .found t3 => .synced (t3 + 1)

/-- How the measurement of a frame's bits ends. -/
inductive FrameEnd
  /-- All bits measured: the bits in the order received, whether one overflowed, and the tick after the last. -/
  | captured (bits : List Bool) (ovf : Bool) (next : Nat)
  /-- TIMEOUT: whether a bound was hit, and the tick after the last one examined. -/
  | timedOut (ovf : Bool) (next : Nat)
deriving DecidableEq, Repr

/-- The loop `for j in 0 .. 39` of PW_FRAME with `n` bits still to measure from tick `s`; `ovf` is `ovf_seen` so far
(42_pulse_width.md R249, R241, R243). -/
def measureBits (L : Latch) (line : Nat → Bool) : Nat → Nat → List Bool → Bool → FrameEnd
  | 0, s, bits, ovf => .captured bits ovf s
  | n + 1, s, bits, ovf =>
    match measureBit L line s with
    | .bit b _ next => measureBits L line n next (bits ++ [b]) ovf
    | .overflow next => if L.toz then measureBits L line n next (bits ++ [false]) true else .timedOut true next
    | .startTimeout e => .timedOut ovf (e + 1)

/-- Bit `j` of a list of received bits. -/
def receivedBit (bits : List Bool) (j : Nat) : Bool := bits.getD j false

/-- `byte_k`: received bit `8k + m` goes to bit `7 - m` (42_pulse_width.md R244). -/
def packedByte (bits : List Bool) (k : Nat) : Byte :=
  (List.range 8).foldl
    (fun byte m => byte ||| ((BitVec.ofBool (receivedBit bits (8 * k + m))).setWidth 8 <<< (7 - m))) 0#8

/-- The timing check of PW_SYNC (60_exceptions.md R351). -/
def pwSyncTiming (L : Latch) : Bool := decide (1 ≤ L.tSync.toNat)

/-- The timing check of PW_BIT (60_exceptions.md R351). -/
def pwBitTiming (L : Latch) : Bool := decide (1 ≤ L.tSync.toNat ∧ 1 ≤ L.tPwmax.toNat)

/-- `start` of PW_FRAME: `L.SEL[0]` (30_encoding.md R127). -/
def frameStart (sel : BitVec 4) : Bool := sel.getLsbD 0

/-- The timing check of PW_FRAME; T_START is checked only when start = 1 (60_exceptions.md R351). -/
def pwFrameTiming (sel : BitVec 4) (L : Latch) : Bool :=
  decide (1 ≤ L.tSync.toNat ∧ 1 ≤ L.tPwmax.toNat) && (!frameStart sel || decide (1 ≤ L.tStart.toNat))

/-- `StartSignal(0)` drives low for ticks `[0, T_START)` when start = 1; nothing else drives PW (42_pulse_width.md R246). -/
def pwFrameDrive (sel : BitVec 4) (L : Latch) (t : Nat) : Bool := frameStart sel && decide (t < L.tStart.toNat)

/-- The tick where Sync begins: after the start signal, or 0 (42_pulse_width.md R246, R249). -/
def frameSyncStart (sel : BitVec 4) (L : Latch) : Nat := if frameStart sel then L.tStart.toNat + L.tRel.toNat else 0

/-- PW_SYNC and PW_BIT drive nothing (42_pulse_width.md R247, R248). -/
def noDrive (_t : Nat) : Bool := false

/-- The run of PW_SYNC (42_pulse_width.md R247). -/
def pwSyncReport (s : State) : Report :=
  let L := s.latch
  s.lineCommand .pw (pwSyncTiming L)
    (match syncPhase L (s.lineLevel .pw noDrive) 0 with
    | .synced n => ⟨.ok, [], false, some n⟩
    | .noDevice e => ⟨.nodev, [], false, some (e + 1)⟩)

/-- RESULT of PW_BIT for a measured bit: `{d[7:0], 7'b0, b}` (42_pulse_width.md R248). -/
def bitResult (b : Bool) (d : Nat) : Word := (BitVec.ofNat 8 d ++ 0#7 ++ BitVec.ofBool b).setWidth 32

/-- The run of PW_BIT (42_pulse_width.md R248). -/
def pwBitReport (s : State) : Report :=
  let L := s.latch
  s.lineCommand .pw (pwBitTiming L)
    (match measureBit L (s.lineLevel .pw noDrive) 0 with
    | .bit b d n => ⟨.ok, [.result (bitResult b d)], false, some n⟩
    | .overflow n => if L.toz then ⟨.ok, [.result 0#32], true, some n⟩ else ⟨.timeout, [], true, some n⟩
    | .startTimeout e => ⟨.timeout, [], false, some (e + 1)⟩)

/-- The staged writes of a captured frame: `DBUF[k] <- byte_k` for `k` in 0 to 4 (42_pulse_width.md R249). -/
def frameWrites (bits : List Bool) : List Staged :=
  [.dbuf 0#4 (packedByte bits 0), .dbuf 1#4 (packedByte bits 1), .dbuf 2#4 (packedByte bits 2),
   .dbuf 3#4 (packedByte bits 3), .dbuf 4#4 (packedByte bits 4)]

/-- The run of PW_FRAME; SEL bits 3:1 not 0 is ILLEGAL (42_pulse_width.md R249, 30_encoding.md R122). -/
def pwFrameReport (sel : BitVec 4) (s : State) : Report :=
  let L := s.latch
  let line := s.lineLevel .pw (pwFrameDrive sel L)
  if sel.toNat ≤ 1 then
    s.lineCommand .pw (pwFrameTiming sel L)
      (match syncPhase L line (frameSyncStart sel L) with
      | .noDevice e => ⟨.nodev, [], false, some (e + 1)⟩
      | .synced n =>
        match measureBits L line 40 n [] false with
        | .captured bits ovf next => ⟨.ok, frameWrites bits, ovf, some next⟩
        | .timedOut ovf next => ⟨.timeout, [], ovf, some next⟩)
  else .raise .illegal

/-- PW_SYNC (42_pulse_width.md R247). -/
def execPwSync (s : State) : Host.Outcome State Fault Refusal := .next (s.finish (pwSyncReport s))

/-- PW_BIT (42_pulse_width.md R248). -/
def execPwBit (s : State) : Host.Outcome State Fault Refusal := .next (s.finish (pwBitReport s))

/-- PW_FRAME (42_pulse_width.md R249). -/
def execPwFrame (sel : BitVec 4) (s : State) : Host.Outcome State Fault Refusal := .next (s.finish (pwFrameReport sel s))

end Sys2Proof.Machine
end

