-- ==== Sys2Proof/Machine/SingleWire.lean ====
section
/-! DEFINITION. The single-wire commands (41_single_wire.md): for each, the waveform it drives on OW tick by tick, the run of its
body, and its meaning. -/

namespace Sys2Proof.Machine

/-- The sampling window of a read slot that starts at tick `s`: tick `s + T_RL + T_RS` (41_single_wire.md R200). -/
def readSampleTick (L : Latch) (s : Nat) : Nat := s + L.tRl.toNat + L.tRs.toNat

/-- A read slot at `s` drives low for ticks `[s, s + T_RL)` (41_single_wire.md R200). -/
def readSlotDrive (L : Latch) (s t : Nat) : Bool := decide (s ≤ t ∧ t < s + L.tRl.toNat)

/-- The low time of a write slot for a bit (41_single_wire.md R201). -/
def writeSlotLow (L : Latch) (b : Bool) : Nat := if b then L.tW1l.toNat else L.tW0l.toNat

/-- `len(b)`, the length of a write slot for a bit (41_single_wire.md R201). -/
def writeSlotLen (L : Latch) (b : Bool) : Nat :=
  if b then L.tW1l.toNat + L.tW1h.toNat else L.tW0l.toNat + L.tW0h.toNat

/-- A write slot at `s` drives low for its low time (41_single_wire.md R201). -/
def writeSlotDrive (L : Latch) (b : Bool) (s t : Nat) : Bool := decide (s ≤ t ∧ t < s + writeSlotLow L b)

/-- The tick at which write slot `k` of a byte starts: the lengths of the slots before it, with no gap
(41_single_wire.md R205). -/
def writeSlotStart (L : Latch) (v : Byte) : Nat → Nat
  | 0 => 0
  | k + 1 => writeSlotStart L v k + writeSlotLen L (v.getLsbD k)

/-- The timing check of OW_RESET (60_exceptions.md R351). -/
def owResetTiming (L : Latch) : Bool := decide (1 ≤ L.tRstl.toNat ∧ 1 ≤ L.tRrec.toNat)

/-- The timing check of OW_WRBIT and OW_WRBYTE (60_exceptions.md R351). -/
def owWriteTiming (L : Latch) : Bool :=
  decide (1 ≤ L.tW1l.toNat ∧ 1 ≤ L.tW1h.toNat ∧ 1 ≤ L.tW0l.toNat ∧ 1 ≤ L.tW0h.toNat)

/-- The timing check of OW_RDBIT and OW_RDBYTE (60_exceptions.md R351). -/
def owReadTiming (L : Latch) : Bool :=
  decide (1 ≤ L.tRl.toNat ∧ L.tRl.toNat + L.tRs.toNat + 1 ≤ L.tRslot.toNat)

/-- OW_RESET drives low for ticks `[0, T_RSTL)` (41_single_wire.md R202). -/
def owResetDrive (L : Latch) (t : Nat) : Bool := decide (t < L.tRstl.toNat)

/-- OW_WRBIT drives the one write slot of its bit (41_single_wire.md R203). -/
def owWrbitDrive (L : Latch) (t : Nat) : Bool := writeSlotDrive L L.writeBit 0 t

/-- OW_RDBIT drives the low part of one read slot (41_single_wire.md R204). -/
def owRdbitDrive (L : Latch) (t : Nat) : Bool := readSlotDrive L 0 t

/-- OW_WRBYTE drives eight write slots, bit 0 first (41_single_wire.md R205). -/
def owWrbyteDrive (L : Latch) (t : Nat) : Bool :=
  (List.range 8).any fun k => writeSlotDrive L (L.writeByte.getLsbD k) (writeSlotStart L L.writeByte k) t

/-- OW_RDBYTE drives the low parts of eight read slots (41_single_wire.md R206). -/
def owRdbyteDrive (L : Latch) (t : Nat) : Bool :=
  (List.range 8).any fun k => readSlotDrive L (k * L.tRslot.toNat) t

/-- The byte whose bit `k` is the sample of read slot `k`, `byte | (ReadSlot(k * T_RSLOT) << k)` for `k` in 0 to 7
(41_single_wire.md R206). -/
def readByte (L : Latch) (line : Nat → Bool) : Byte :=
  (List.range 8).foldl
    (fun byte k => byte ||| ((BitVec.ofBool (line (readSampleTick L (k * L.tRslot.toNat)))).setWidth 8 <<< k)) 0#8

/-- The run of OW_RESET: RESULT is 1 when the line is low at the presence sample (41_single_wire.md R202). -/
def owResetReport (s : State) : Report :=
  let L := s.latch
  s.lineCommand .ow (owResetTiming L)
    { code := .ok
      staged := [.result (Word.ofBit (!s.lineLevel .ow (owResetDrive L) (L.tRstl.toNat + L.tPds.toNat)))]
      ovfSeen := false
      ticks := some (L.tRstl.toNat + L.tPds.toNat + L.tRrec.toNat) }

/-- The run of OW_WRBIT: one write slot, nothing sampled, nothing staged (41_single_wire.md R203). -/
def owWrbitReport (s : State) : Report :=
  let L := s.latch
  s.lineCommand .ow (owWriteTiming L)
    { code := .ok
      staged := []
      ovfSeen := false
      ticks := some (writeSlotLen L L.writeBit) }

/-- The run of OW_RDBIT: RESULT is the sample of one read slot (41_single_wire.md R204). -/
def owRdbitReport (s : State) : Report :=
  let L := s.latch
  s.lineCommand .ow (owReadTiming L)
    { code := .ok
      staged := [.result (Word.ofBit (s.lineLevel .ow (owRdbitDrive L) (readSampleTick L 0)))]
      ovfSeen := false
      ticks := some L.tRslot.toNat }

/-- The run of OW_WRBYTE: eight write slots, nothing sampled, nothing staged (41_single_wire.md R205). -/
def owWrbyteReport (s : State) : Report :=
  let L := s.latch
  s.lineCommand .ow (owWriteTiming L)
    { code := .ok
      staged := []
      ovfSeen := false
      ticks := some (writeSlotStart L L.writeByte 8) }

/-- The run of OW_RDBYTE: the byte read goes to RESULT and to `DBUF[i]` (41_single_wire.md R206). -/
def owRdbyteReport (i : BitVec 4) (s : State) : Report :=
  let L := s.latch
  let byte := readByte L (s.lineLevel .ow (owRdbyteDrive L))
  s.lineCommand .ow (owReadTiming L)
    { code := .ok
      staged := [.result (Word.ofByte byte), .dbuf i byte]
      ovfSeen := false
      ticks := some (8 * L.tRslot.toNat) }

/-- OW_RESET (41_single_wire.md R202). -/
def execOwReset (s : State) : Host.Outcome State Fault Refusal := .next (s.finish (owResetReport s))

/-- OW_WRBIT (41_single_wire.md R203). -/
def execOwWrbit (s : State) : Host.Outcome State Fault Refusal := .next (s.finish (owWrbitReport s))

/-- OW_RDBIT (41_single_wire.md R204). -/
def execOwRdbit (s : State) : Host.Outcome State Fault Refusal := .next (s.finish (owRdbitReport s))

/-- OW_WRBYTE (41_single_wire.md R205). -/
def execOwWrbyte (s : State) : Host.Outcome State Fault Refusal := .next (s.finish (owWrbyteReport s))

/-- OW_RDBYTE (41_single_wire.md R206). -/
def execOwRdbyte (i : BitVec 4) (s : State) : Host.Outcome State Fault Refusal := .next (s.finish (owRdbyteReport i s))

end Sys2Proof.Machine
end

