-- ==== Sys2Proof/Machine/Dispatch.lean ====
section
/-! DEFINITION. The meaning of every command: one arm per constructor of Instr. `exec i s` is the completion step of the running
command `i` (40_common.md R150, R154). -/

namespace Sys2Proof.Machine

def exec (i : Instr) (s : State) : Host.Outcome State Fault Refusal :=
  match i with
  | .nop => Sys2Proof.Machine.execNop s
  | .owReset => Sys2Proof.Machine.execOwReset s
  | .owWrbit => Sys2Proof.Machine.execOwWrbit s
  | .owRdbit => Sys2Proof.Machine.execOwRdbit s
  | .owWrbyte => Sys2Proof.Machine.execOwWrbyte s
  | .owRdbyte n => Sys2Proof.Machine.execOwRdbyte n s
  | .pwSync => Sys2Proof.Machine.execPwSync s
  | .pwBit => Sys2Proof.Machine.execPwBit s
  | .pwFrame sel => Sys2Proof.Machine.execPwFrame sel s
  | .bcdDec sel => Sys2Proof.Machine.execBcdDec sel s
  | .bcdEnc sel => Sys2Proof.Machine.execBcdEnc sel s
  | .dow => Sys2Proof.Machine.execDow s
  | .chkCrc8 n => Sys2Proof.Machine.execChkCrc8 n s
  | .chkSum8 n => Sys2Proof.Machine.execChkSum8 n s

end Sys2Proof.Machine
end

