-- ==== Sys2Proof/Machine/Sequencer.lean ====
section
/-! DEFINITION. The sequencer between accept and completion (40_common.md R151 to R156, R161; 10_state.md R45, R51): accepting a
command, the countdown to its completion edge, and the waveform it drives tick by tick. -/

namespace Sys2Proof.Machine

/-- `execute(L)` of 40_common.md R153 for a decoded command: what its run ends with. -/
def commandReport (i : Instr) (s : State) : Report :=
  match i with
  | .nop => nopReport s
  | .owReset => owResetReport s
  | .owWrbit => owWrbitReport s
  | .owRdbit => owRdbitReport s
  | .owWrbyte => owWrbyteReport s
  | .owRdbyte n => owRdbyteReport n s
  | .pwSync => pwSyncReport s
  | .pwBit => pwBitReport s
  | .pwFrame sel => pwFrameReport sel s
  | .bcdDec sel => bcdDecReport sel s
  | .bcdEnc sel => bcdEncReport sel s
  | .dow => dowReport s
  | .chkCrc8 n => chkCrc8Report n s
  | .chkSum8 n => chkSum8Report n s

/-- `drv_X(t)` of a decoded command on its latched set: 1 where its body says "drive X low" (40_common.md R157, R161). A compute
command drives no line and a line command only its own (R163). -/
def commandDrive (i : Instr) (L : Latch) (x : Line) (t : Nat) : Bool :=
  match i, x with
  | .owReset, .ow => owResetDrive L t
  | .owWrbit, .ow => owWrbitDrive L t
  | .owRdbit, .ow => owRdbitDrive L t
  | .owWrbyte, .ow => owWrbyteDrive L t
  | .owRdbyte _, .ow => owRdbyteDrive L t
  | .pwFrame sel, .pw => pwFrameDrive sel L t
  | .nop, _ => false
  | .owReset, .pw => false
  | .owWrbit, .pw => false
  | .owRdbit, .pw => false
  | .owWrbyte, .pw => false
  | .owRdbyte _, .pw => false
  | .pwSync, _ => false
  | .pwBit, _ => false
  | .pwFrame _, .ow => false
  | .bcdDec _, _ => false
  | .bcdEnc _, _ => false
  | .dow, _ => false
  | .chkCrc8 _, _ => false
  | .chkSum8 _, _ => false

/-- What the run of the latched word ends with, a reserved word with ILLEGAL (30_encoding.md R123). -/
def State.latchedReport (s : State) : Report :=
  match decode s.latch.word with
  | .ok i => commandReport i s
  | .error _ => .raise .illegal

/-- `drv_X(t)` of the latched word (40_common.md R157). -/
def State.latchedDrive (s : State) (x : Line) (t : Nat) : Bool :=
  match decode s.latch.word with
  | .ok i => commandDrive i s.latch x t
  | .error _ => false

/-- Edges from accept to the boundary where tick 0 starts: the first tick boundary that comes `lat` cycles or more after the
accept edge, with `k` cycles a tick and the prescaler at `p` after that edge (40_common.md R156, 10_state.md R51). -/
def startDelay (k lat p : Nat) : Nat := lat + (k - (p + lat) % k) % k

/-- Edges from accept to the boundary where tick 0 of the command just accepted starts (40_common.md R156). -/
def State.leadEdges (s : State) : Nat := startDelay Config.clkPerUs Config.issueLat s.prescaler

/-- The countdown of a command just accepted: `COMPUTE_LAT` edges where it has no tick, else up to boundary `D`
(40_common.md R156; assumption 2). -/
def State.schedule (s : State) : State :=
  { s with
    phase :=
      match s.latchedReport.ticks with
      | none => .untimed
      | some _ => .issue s.leadEdges
    wait :=
      match s.latchedReport.ticks with
      | none => Config.computeLat - 1
      | some d => s.leadEdges + d * Config.clkPerUs - 1 }

/-- The register writes of accept (40_common.md R151). -/
def State.takeCommand (w : Word) (s : State) : State :=
  { s.acceptFlags with
    cmd := w
    latch := s.latchOf w
    staged := []
    ovfSeen := false
    tick := 0 }

/-- Accept of the word `w` (40_common.md R151). -/
def State.accept (w : Word) (s : State) : State := (s.takeCommand w).schedule

/-- Tick `t` of the running command starts: the sequencer drives its line as the body says for that tick (40_common.md R156,
R161; 20_memory.md R82). -/
def State.startTick (t : Nat) (s : State) : State :=
  { s with
    phase := .ticking
    tick := t
    seqDrvOw := s.latchedDrive .ow t
    seqDrvPw := s.latchedDrive .pw t }

/-- The sequencer on an edge of a running command that is not its completion edge, the prescaler already moved on: 0 marks a tick
boundary (10_state.md R51, 40_common.md R156). -/
def State.advance (s : State) : State :=
  let s' := { s with wait := s.wait - 1 }
  match s.phase with
  | .untimed => s'
  | .issue n => if n ≤ 1 then s'.startTick 0 else { s' with phase := .issue (n - 1) }
  | .ticking => if s.prescaler = 0 then s'.startTick (s.tick + 1) else s'

end Sys2Proof.Machine
end

