-- ==== Sys2Proof/Machine/HostPort.lean ====
section
/-! DEFINITION. The host port (20_memory.md): the address map, reads, writes, the part of a clock edge that does not depend on the
running command, and reset (70_reset_and_hazards.md R390). -/

namespace Sys2Proof.Machine

/-- The registers of the window (10_state.md R30). -/
inductive Reg
  | ctrl
  | status
  | cmd
  | arg0
  | arg1
  | result
  | line
  | dbuf (k : BitVec 2)
  | tim0
  | tim1
  | tim2
  | tim3
  | tim4
  | reserved
deriving DecidableEq, Repr

/-- The register at a word offset: byte offset `4 * reg_addr` of the map (10_state.md R30, 20_memory.md R80). -/
def Reg.ofAddr (a : BitVec 6) : Reg :=
  match 4 * a.toNat with
  | 0x00 => .ctrl
  | 0x04 => .status
  | 0x08 => .cmd
  | 0x0C => .arg0
  | 0x10 => .arg1
  | 0x14 => .result
  | 0x18 => .line
  | 0x20 => .dbuf 0#2
  | 0x24 => .dbuf 1#2
  | 0x28 => .dbuf 2#2
  | 0x2C => .dbuf 3#2
  | 0x30 => .tim0
  | 0x34 => .tim1
  | 0x38 => .tim2
  | 0x3C => .tim3
  | 0x40 => .tim4
  | _ => .reserved

/-- The word offset of a register, 0x1C for the reserved ones (10_state.md R30). -/
def Reg.addr : Reg → BitVec 6
  | .ctrl => 0x00#6
  | .status => 0x01#6
  | .cmd => 0x02#6
  | .arg0 => 0x03#6
  | .arg1 => 0x04#6
  | .result => 0x05#6
  | .line => 0x06#6
  | .dbuf k => 0b0010#4 ++ k
  | .tim0 => 0x0C#6
  | .tim1 => 0x0D#6
  | .tim2 => 0x0E#6
  | .tim3 => 0x0F#6
  | .tim4 => 0x10#6
  | .reserved => 0x07#6

/-- CTRL as the host reads it (10_state.md R32). -/
def State.ctrlWord (s : State) : Word := 0#30 ++ BitVec.ofBool s.toz ++ BitVec.ofBool s.ie

/-- LINE.X_IN: the synchroniser output, 0 while SWDB drives the line low (10_state.md R38, R47; assumption 6). -/
def State.lineIn (s : State) : Line → Bool
  | .ow => s.owSync.second && !s.driveLow .ow
  | .pw => s.pwSync.second && !s.driveLow .pw

/-- LINE as the host reads it (10_state.md R38). -/
def State.lineWord (s : State) : Word :=
  0#22 ++ BitVec.ofBool (s.lineIn .pw) ++ BitVec.ofBool (s.lineIn .ow) ++ 0#6 ++ BitVec.ofBool s.pwDrv ++ BitVec.ofBool s.owDrv

/-- A host read: the register's value, reserved bits and offsets 0 (20_memory.md R84, R87; 10_state.md R31). -/
def State.readReg (s : State) : Reg → Word
  | .ctrl => s.ctrlWord
  | .status => s.statusWord
  | .cmd => s.cmd
  | .arg0 => s.arg0
  | .arg1 => s.arg1
  | .result => s.result
  | .line => s.lineWord
  | .dbuf k => s.dbufWord k
  | .tim0 => s.tim0
  | .tim1 => s.tim1
  | .tim2 => s.tim2
  | .tim3 => s.tim3
  | .tim4 => s.tStart.setWidth 32
  | .reserved => 0#32

/-- A host write (20_memory.md R88; 10_state.md R31 to R44), with `busy` the value of STATUS.BUSY before the edge: CMD, LINE and
DBUF are then dropped (R48). -/
def State.writeReg (busy : Bool) (v : Word) (s : State) : Reg → State
  | .ctrl => { s with ie := v.getLsbD 0, toz := v.getLsbD 1 }
  | .status => s.writeStatus v
  | .cmd => if busy then s.dropWrite else s.accept v
  | .arg0 => { s with arg0 := v }
  | .arg1 => { s with arg1 := v }
  | .result => s
  | .line => if busy then s.dropWrite else { s with owDrv := v.getLsbD 0, pwDrv := v.getLsbD 1 }
  | .dbuf k => if busy then s.dropWrite else s.setDbufWord k v
  | .tim0 => { s with tim0 := v }
  | .tim1 => { s with tim1 := v }
  | .tim2 => { s with tim2 := v }
  | .tim3 => { s with tim3 := v }
  | .tim4 => { s with tStart := v.extractLsb' 0 16 }
  | .reserved => s

/-- A cycle in which the host does nothing; the pins are free draws (assumptions 4 and 12). -/
def PortCycle.quiet (clock : Nat) : PortCycle where
  rstN := true
  rd := false
  wr := false
  addr := 0
  wdata := 0
  owIn := Config.pin .ow clock
  pwIn := Config.pin .pw clock

/-- The port cycle of the coming edge: the next one listed, or a quiet one. -/
def State.cycle (s : State) : PortCycle := s.port.headD (PortCycle.quiet s.clock)

/-- The pin level shifts into the synchroniser (10_state.md R47). -/
def Synchroniser.shift (y : Synchroniser) (pin : Bool) : Synchroniser := ⟨pin, y.first⟩

/-- The prescaler moves on: 0 to `CLK_PER_US - 1`, then 0 again (10_state.md R51). -/
def nextPrescaler (p : Nat) : Nat := if p + 1 < Config.clkPerUs then p + 1 else 0

/-- The input list and the clock edge number move on (assumption 12). -/
def State.nextInput (s : State) : State := { s with port := s.port.tail, clock := s.clock + 1 }

/-- What every edge out of reset does before the host's write and the sequencer: the inputs, the timebase, the synchronisers and
the read data move on (20_memory.md R84; 10_state.md R47, R51). Each pin is low when either side pulls it low (20_memory.md R81). -/
def State.clockEdge (c : PortCycle) (s : State) : State :=
  { s.nextInput with
    prescaler := nextPrescaler s.prescaler
    owSync := s.owSync.shift (c.owIn && !s.driveLow .ow)
    pwSync := s.pwSync.shift (c.pwIn && !s.driveLow .pw)
    rdata := if c.rd then s.readReg (Reg.ofAddr c.addr) else s.rdata }

/-- An edge out of reset up to the sequencer's own move: the clocked part, then the host's write (20_memory.md R84, R88). A write
on the completion edge acts before the completion, so a set wins over a clear (60_exceptions.md R355; assumption 13). -/
def State.hostEdge (c : PortCycle) (s : State) : State :=
  if c.wr then (s.clockEdge c).writeReg s.busy c.wdata (Reg.ofAddr c.addr) else s.clockEdge c

/-- An edge with `rst_n = 0`: every register and the sequencer take their reset values, the prescaler restarts at 0, a write has
no effect (70_reset_and_hazards.md R390, R391). What is no part of SWDB stays: the inputs and the free draws. -/
def State.resetEdge (c : PortCycle) (s : State) : State :=
  { State.reset with
    owSync := Synchroniser.afterReset .ow s.clock
    pwSync := Synchroniser.afterReset .pw s.clock
    rdata := if c.rd then s.readReg (Reg.ofAddr c.addr) else s.rdata
    port := s.port.tail
    waves := s.waves
    draw := s.draw + 1
    clock := s.clock + 1 }

/-- `MemRead(off, width)` as a port cycle, with the pins at free draws; refused (none) where the offset is not a multiple of 4, is
outside the window, or the width is not 4 bytes (20_memory.md R85, R86; 00_scope.md R13). -/
def memRead (clock off width : Nat) : Option PortCycle :=
  if off % 4 = 0 ∧ off < 256 ∧ width = 4 then
    some { PortCycle.quiet clock with rd := true, addr := BitVec.ofNat 6 (off / 4) }
  else none

/-- `MemWrite(off, width, v)` as a port cycle, refused as `memRead` is (20_memory.md R85, R86; 00_scope.md R13). -/
def memWrite (clock off width : Nat) (v : Word) : Option PortCycle :=
  if off % 4 = 0 ∧ off < 256 ∧ width = 4 then
    some { PortCycle.quiet clock with wr := true, addr := BitVec.ofNat 6 (off / 4), wdata := v }
  else none

/-- The window offset of a platform address, none outside the window (20_memory.md R94, 60_exceptions.md R359). -/
def windowOffset (address : Nat) : Option Nat :=
  if Config.swdbBase ≤ address ∧ address < Config.swdbBase + 256 then some (address - Config.swdbBase) else none

end Sys2Proof.Machine
end

