-- ==== Sys2Proof/Machine/Step.lean ====
section
/-! DEFINITION. One step: one rising edge of `clk` (20_memory.md R80; assumption 1). -/

namespace Sys2Proof.Machine

/-- The completion edge of the running command: the decoded command's meaning, or ILLEGAL for a reserved word
(40_common.md R153, R154; 30_encoding.md R123). -/
def State.completionEdge (s : State) : Host.Outcome State Fault Refusal :=
  match decode s.latch.word with
  | .ok i => exec i s
  | .error _ => .next (s.finish (.raise .illegal))

/-- An edge out of reset: the host's access, then the sequencer's move where a command was running before the edge
(40_common.md R150). -/
def State.runEdge (c : PortCycle) (s : State) : Host.Outcome State Fault Refusal :=
  if s.seq = .run then
    if s.wait = 0 then (s.hostEdge c).completionEdge else .next (s.hostEdge c).advance
  else .next (s.hostEdge c)

/-- One rising edge of `clk`. A cycle that asserts `reg_rd` and `reg_wr` together is refused (20_memory.md R84). -/
def step (s : State) : Host.Outcome State Fault Refusal :=
  if s.cycle.rd && s.cycle.wr then .refused .readAndWrite
  else if s.cycle.rstN then s.runEdge s.cycle
  else .next (s.resetEdge s.cycle)

/-- `s` with the command of the table's word `w` accepted and its completion due on the very next edge, a quiet one put before
the coming port cycles: SWDB fetches nothing (10_state.md R49), a command is the word accepted from the host (assumption 12). -/
def State.withFetchWord (s : State) (nbits w : Nat) : State :=
  { s.accept (BitVec.ofNat 32 (w % 2 ^ nbits)) with
    wait := 0
    port := PortCycle.quiet s.clock :: s.port }

end Sys2Proof.Machine
end

