-- ==== Sys2Proof/Machine/HostNotation.lean ====
section
/-! DEFINITION. The host's notation and its pseudo-instructions, as lists of host actions (30_encoding.md R129 to R131,
00_scope.md R6). SWDB itself knows none of them: it sees the port cycles of `wr` and `rd`. -/

namespace Sys2Proof.Machine

/-- One action of a host program (30_encoding.md R129), and the two conditional stops of R131. -/
inductive HostAction
  /-- `wr NAME, v`. -/
  | wr (r : Reg) (v : Word)
  /-- `rd NAME`. -/
  | rd (r : Reg)
  /-- `wait`: read STATUS until BUSY = 0. -/
  | wait
  /-- Stop with no device if RESULT[0] = 0. -/
  | stopIfAbsent
  /-- Stop if STATUS.ERR is not OK. -/
  | stopIfError
deriving DecidableEq, Repr

/-- The port cycle of `wr` and of `rd` (30_encoding.md R129); one read of STATUS for each turn of `wait`; none for a stop, which is
the host's own decision. -/
def HostAction.cycle (clock : Nat) : HostAction → Option PortCycle
  | .wr r v => some { PortCycle.quiet clock with wr := true, addr := r.addr, wdata := v }
  | .rd r => some { PortCycle.quiet clock with rd := true, addr := r.addr }
  | .wait => some { PortCycle.quiet clock with rd := true, addr := Reg.addr .status }
  | .stopIfAbsent => none
  | .stopIfError => none

/-- `wr CMD, word ; wait`, the end of every expansion of 30_encoding.md R130. -/
def issueCommand (i : Instr) : List HostAction := [.wr .cmd (encode i), .wait]

/-- `OW_WRBIT b` (30_encoding.md R130). -/
def hostOwWrbit (b : Word) : List HostAction := .wr .arg0 b :: issueCommand .owWrbit

/-- `OW_WRBYTE v` (30_encoding.md R130). -/
def hostOwWrbyte (v : Byte) : List HostAction := .wr .arg0 (Word.ofByte v) :: issueCommand .owWrbyte

/-- `OW_RDBYTE i` (30_encoding.md R130). -/
def hostOwRdbyte (i : BitVec 4) : List HostAction := issueCommand (.owRdbyte i)

/-- `PW_FRAME s` (30_encoding.md R130). -/
def hostPwFrame (start : Bool) : List HostAction := issueCommand (.pwFrame ((BitVec.ofBool start).setWidth 4))

/-- `BCD_DEC F, b`, with the code of `F` (30_encoding.md R130). -/
def hostBcdDec (code : BitVec 3) (b : Word) : List HostAction := .wr .arg0 b :: issueCommand (.bcdDec (code.setWidth 4))

/-- `BCD_ENC F, v`, with the code of `F` (30_encoding.md R130). -/
def hostBcdEnc (code : BitVec 3) (v : Word) : List HostAction := .wr .arg0 v :: issueCommand (.bcdEnc (code.setWidth 4))

/-- `DOW y, m, d`: ARG1 is `m | (d << 8)` (30_encoding.md R130). -/
def hostDow (y : Word) (m d : Byte) : List HostAction :=
  .wr .arg0 y :: .wr .arg1 (0#16 ++ d ++ m) :: issueCommand .dow

/-- `OW_SKIP`: the broadcast byte 0xCC (30_encoding.md R131). -/
def hostOwSkip : List HostAction := hostOwWrbyte 0xCC#8

/-- `OW_SELECT`: 0x55, then the 8 address bytes, least-significant byte first (30_encoding.md R131, 00_scope.md R6). -/
def hostOwSelect (address : BitVec 64) : List HostAction :=
  hostOwWrbyte 0x55#8 ++ (List.range 8).flatMap fun k => hostOwWrbyte (address.extractLsb' (8 * k) 8)

/-- `OW_CONVERT` (30_encoding.md R131). -/
def hostOwConvert : List HostAction :=
  issueCommand .owReset ++ [.rd .result, .stopIfAbsent] ++ hostOwSkip ++ hostOwWrbyte 0x44#8

/-- `OW_READ_SP` (30_encoding.md R131). -/
def hostOwReadSp : List HostAction :=
  issueCommand .owReset ++ [.rd .result, .stopIfAbsent] ++ hostOwSkip ++ hostOwWrbyte 0xBE#8
    ++ (List.range 9).flatMap (fun k => hostOwRdbyte (BitVec.ofNat 4 k)) ++ issueCommand (.chkCrc8 8#4)

/-- `PW_READ` (30_encoding.md R131). -/
def hostPwRead : List HostAction :=
  hostPwFrame true ++ [.rd .status, .stopIfError] ++ issueCommand (.chkSum8 4#4)

end Sys2Proof.Machine
end

