-- ==== Sys2Proof/Safety.lean ====
section
/-! DEFINITION. The terms claims use: what completion leaves, how a line behaves, what a reachable state keeps, and the calendar
that the day-of-week engine is held against. -/

namespace Sys2Proof.Machine

/-- `s` after the completion of its command with a code, where `ovf` says whether a bound was hit and `result` and `dbuf` are what
RESULT and DBUF hold then; everything else is as before (40_common.md R154). -/
def State.completedWith (code : ErrCode) (ovf : Bool) (result : Word) (dbuf : Vector Byte 16) (s : State) : State :=
  { s with
    result := result
    dbuf := dbuf
    ovf := s.ovf || ovf
    err := code
    done := true
    seq := .idle
    staged := []
    ovfSeen := false
    seqDrvOw := false
    seqDrvPw := false
    draw := s.draw + 1 }

/-- `t` is the first tick from `s` on at which the line has the level (40_common.md R159). -/
def FirstAt (line : Nat → Bool) (lvl : Bool) (s t : Nat) : Prop :=
  s ≤ t ∧ line t = lvl ∧ ∀ u, s ≤ u → u < t → line u = !lvl

/-- The line keeps a level on the ticks `[s, e)`. -/
def Holds (line : Nat → Bool) (lvl : Bool) (s e : Nat) : Prop := ∀ u, s ≤ u → u < e → line u = lvl

/-- The line a command uses; none for a compute command (00_scope.md R18). -/
def lineOf : Instr → Option Line
  | .nop => none
  | .owReset => some .ow
  | .owWrbit => some .ow
  | .owRdbit => some .ow
  | .owWrbyte => some .ow
  | .owRdbyte _ => some .ow
  | .pwSync => some .pw
  | .pwBit => some .pw
  | .pwFrame _ => some .pw
  | .bcdDec _ => none
  | .bcdEnc _ => none
  | .dow => none
  | .chkCrc8 _ => none
  | .chkSum8 _ => none

/-- The legal timing of each line command, as the table of 60_exceptions.md R351 lists it; no condition on the others. -/
def TimingLegal (L : Latch) : Instr → Prop
  | .owReset => 1 ≤ L.tRstl.toNat ∧ 1 ≤ L.tRrec.toNat
  | .owWrbit => 1 ≤ L.tW1l.toNat ∧ 1 ≤ L.tW1h.toNat ∧ 1 ≤ L.tW0l.toNat ∧ 1 ≤ L.tW0h.toNat
  | .owWrbyte => 1 ≤ L.tW1l.toNat ∧ 1 ≤ L.tW1h.toNat ∧ 1 ≤ L.tW0l.toNat ∧ 1 ≤ L.tW0h.toNat
  | .owRdbit => 1 ≤ L.tRl.toNat ∧ L.tRl.toNat + L.tRs.toNat + 1 ≤ L.tRslot.toNat
  | .owRdbyte _ => 1 ≤ L.tRl.toNat ∧ L.tRl.toNat + L.tRs.toNat + 1 ≤ L.tRslot.toNat
  | .pwSync => 1 ≤ L.tSync.toNat
  | .pwBit => 1 ≤ L.tSync.toNat ∧ 1 ≤ L.tPwmax.toNat
  | .pwFrame sel => 1 ≤ L.tSync.toNat ∧ 1 ≤ L.tPwmax.toNat ∧ (sel.getLsbD 0 = true → 1 ≤ L.tStart.toNat)
  | .nop => True
  | .bcdDec _ => True
  | .bcdEnc _ => True
  | .dow => True
  | .chkCrc8 _ => True
  | .chkSum8 _ => True

/-- The tick where the synchronisation phase of PW_FRAME begins: after the start signal, or tick 0 (42_pulse_width.md R246). -/
def frameSyncTick (L : Latch) (sel : BitVec 4) : Nat := if sel.getLsbD 0 = true then L.tStart.toNat + L.tRel.toNat else 0

/-- From tick `s` the line shows a low, a high and a low, each within T_SYNC ticks of the tick after the one before; the last is
at tick `t3` (42_pulse_width.md R242). -/
def SyncShown (L : Latch) (line : Nat → Bool) (s t3 : Nat) : Prop :=
  ∃ t1 t2, FirstAt line false s t1 ∧ t1 < s + L.tSync.toNat ∧
    FirstAt line true (t1 + 1) t2 ∧ t2 < t1 + 1 + L.tSync.toNat ∧
    FirstAt line false (t2 + 1) t3 ∧ t3 < t2 + 1 + L.tSync.toNat

/-- From tick `s` the line shows a pulse: high at `r` within T_SYNC ticks; then low again at `q` within T_PWMAX ticks, or, where
`hit` says that the bound was hit, still high at its last tick `q` (42_pulse_width.md R240). -/
def PulseShown (L : Latch) (line : Nat → Bool) (s r q : Nat) (hit : Bool) : Prop :=
  FirstAt line true s r ∧ r < s + L.tSync.toNat ∧
    (if hit = true then q = r + L.tPwmax.toNat ∧ Holds line true r (q + 1)
      else FirstAt line false (r + 1) q ∧ q ≤ r + L.tPwmax.toNat)

/-- The tick where the measurement of bit `j` starts: after the sync phase, or after the bit before (42_pulse_width.md R249). -/
def bitStartTick (t3 : Nat) (q : Nat → Nat) (j : Nat) : Nat := if j = 0 then t3 + 1 else q (j - 1) + 1

/-- The PW line shows PW_FRAME the sync phase and `n` pulses, of which one that hits the bound needs TOZ = 1
(42_pulse_width.md R241, R249). -/
def FrameShown (s : State) (sel : BitVec 4) (n t3 : Nat) (r q : Nat → Nat) (hit : Nat → Bool) : Prop :=
  SyncShown s.latch (s.ext .pw) (frameSyncTick s.latch sel) t3 ∧
    ∀ j, j < n → PulseShown s.latch (s.ext .pw) (bitStartTick t3 q j) (r j) (q j) (hit j) ∧
      (hit j = true → s.latch.toz = true)

/-- PW_FRAME passes its checks (60_exceptions.md R351). -/
def FrameReady (s : State) (sel : BitVec 4) : Prop :=
  sel.toNat ≤ 1 ∧ s.pwDrv = false ∧ TimingLegal s.latch (.pwFrame sel)

/-- The CRC of 45_checksum.md R330, written over the bits of each byte in place of shifting it. -/
def crcOfBits (bytes : List Byte) : Byte :=
  bytes.foldl
    (fun c x => (List.range 8).foldl
      (fun c k => if (c.getLsbD 0 ^^ x.getLsbD k) = true then (c >>> 1) ^^^ 0x8C#8 else c >>> 1) c) 0#8

/-- What every state reached from reset keeps of the sequencer (10_state.md R45, R46; 40_common.md R151, R152, R161, R163):
nothing staged between steps; while a command runs, DONE = 0, ERR = OK, `L` agrees with CMD and DBUF, and each line is driven as
the body says in a tick and not at all before tick 0; while none runs, no line is driven by the sequencer. -/
structure SequencerInv (s : State) : Prop where
  prescaler_lt : s.prescaler < Config.clkPerUs
  staged_nil : s.staged = []
  ovfSeen_false : s.ovfSeen = false
  idle_released : s.seq = .idle → ∀ x, s.seqDrive x = false
  run_flags : s.seq = .run → s.done = false ∧ s.err = .ok
  run_word : s.seq = .run → s.latch.word = s.cmd
  run_dbuf : s.seq = .run → s.latch.dbuf = s.dbuf
  run_drive : s.seq = .run → s.phase = .ticking → ∀ x, s.seqDrive x = s.latchedDrive x s.tick
  run_before : s.seq = .run → s.phase ≠ .ticking → ∀ x, s.seqDrive x = false

/-- What every state reached from reset keeps of the countdown (40_common.md R156): a command without ticks completes within
`COMPUTE_LAT` edges; a line command of duration `D` starts tick 0 on a tick boundary and completes on boundary `D`. -/
structure CountdownInv (s : State) : Prop where
  prescaler_lt : s.prescaler < Config.clkPerUs
  untimed : s.seq = .run → s.phase = .untimed → s.latchedReport.ticks = none ∧ s.wait < Config.computeLat
  issue : s.seq = .run → ∀ n, s.phase = .issue n →
    1 ≤ n ∧ (s.prescaler + n) % Config.clkPerUs = 0 ∧
      ∃ d, s.latchedReport.ticks = some d ∧ s.wait + 1 = n + d * Config.clkPerUs
  ticking : s.seq = .run → s.phase = .ticking →
    ∃ d, s.latchedReport.ticks = some d ∧ s.tick < d ∧
      s.wait + 1 + s.prescaler = (d - s.tick) * Config.clkPerUs

/-- The ranges of the field codes 0 to 7, as the table of 43_bcd.md R280 prints them. -/
def bcdRanges : List (Nat × Nat) :=
  [(0, 99), (0, 59), (0, 59), (0, 23), (1, 31), (1, 12), (1, 7), (2000, 2099)]

/-- `v` lies in the range of the field code `f` (43_bcd.md R280). -/
def InBcdRange (f v : Nat) : Prop := (bcdRanges.getD f (1, 0)).1 ≤ v ∧ v ≤ (bcdRanges.getD f (1, 0)).2

/-- A command word that 30_encoding.md R125 calls reserved: an OP outside R124, RSV not 0, or a SEL outside R122. -/
def ReservedWord (w : Word) : Prop :=
  let op := (cmdOp w).toNat
  let sel := (cmdSel w).toNat
  ((0x06 ≤ op ∧ op ≤ 0x0F) ∨ (0x13 ≤ op ∧ op ≤ 0x1F) ∨ (0x22 ≤ op ∧ op ≤ 0x2F) ∨ (0x31 ≤ op ∧ op ≤ 0x3F) ∨
    (0x42 ≤ op ∧ op ≤ 0xFF)) ∨
  cmdRsv w ≠ 0#20 ∨
  ((op ≤ 0x04 ∨ op = 0x10 ∨ op = 0x11 ∨ op = 0x30) ∧ sel ≠ 0) ∨ (op = 0x12 ∧ 1 < sel) ∨ ((op = 0x20 ∨ op = 0x21) ∧ 7 < sel)

/-- The coming port cycle is out of reset and asserts at most one of `reg_rd` and `reg_wr` (20_memory.md R84). -/
def Runs (s : State) : Prop := s.cycle.rstN = true ∧ (s.cycle.rd && s.cycle.wr) = false

/-- The coming port cycle, out of reset, writes a register (20_memory.md R84). -/
def Writes (s : State) (r : Reg) : Prop :=
  s.cycle.rstN = true ∧ s.cycle.rd = false ∧ s.cycle.wr = true ∧ Reg.ofAddr s.cycle.addr = r

/-- A running command with the word `w` completes with ILLEGAL and nothing else (30_encoding.md R123). -/
def EndsIllegal (w : Word) : Prop :=
  ∀ s : State, s.seq = .run → s.wait = 0 → Runs s → s.latch.word = w →
    step s = .next ((s.hostEdge s.cycle).completedWith .illegal false s.result s.dbuf)

/-- What accept leaves as it was: every register of the window but CMD and STATUS, the drive bits of LINE, OVF and WBUSY, and what
the sequencer drives (40_common.md R151). -/
def KeptByAccept (s t : State) : Prop :=
  (∀ r, r ≠ .cmd → r ≠ .status → r ≠ .line → t.readReg r = s.readReg r) ∧ t.owDrv = s.owDrv ∧ t.pwDrv = s.pwDrv ∧
    t.ovf = s.ovf ∧ t.wbusy = s.wbusy ∧ ∀ x, t.seqDrive x = s.seqDrive x

/-- A leap year of the Gregorian calendar (44_day_of_week.md R314). -/
def leapYear (y : Nat) : Bool := y % 4 == 0 && (y % 100 != 0 || y % 400 == 0)

/-- Days in the years 1 to `y - 1` (44_day_of_week.md R314). -/
def daysBeforeYear : Nat → Nat
  | 0 => 0
  | 1 => 0
  | y + 2 => daysBeforeYear (y + 1) + if leapYear (y + 1) then 366 else 365

/-- Days of a month of a year (44_day_of_week.md R314). -/
def monthLength (y m : Nat) : Nat :=
  if m = 2 then (if leapYear y then 29 else 28) else if m = 4 ∨ m = 6 ∨ m = 9 ∨ m = 11 then 30 else 31

/-- Days in the months 1 to `m - 1` of a year (44_day_of_week.md R314). -/
def daysBeforeMonth (y : Nat) : Nat → Nat
  | 0 => 0
  | 1 => 0
  | m + 2 => daysBeforeMonth y (m + 1) + monthLength y (m + 1)

end Sys2Proof.Machine
end

