-- ==== Sys2Proof/Certificates/Slice0/Obligations.lean ====
section
/-! DEFINITION. The statements for the provers. Each docstring names the rule of spec/ it formalises. -/

open Sys2Proof Sys2Proof.Machine

/-- Decoding and encoding agree on every word and every command: a word decodes to a command exactly when the command is well
formed and the word is its encoding (30_encoding.md R120, R122, R124). -/
def Obligations.EncodeDecodeAgree : Prop :=
  ∀ (w : Word) (i : Instr), decode w = .ok i ↔ i.WellFormed ∧ w = encode i

/-- Every word is either exactly one row of the opcode map, by the map's own match and mask, or reserved (30_encoding.md R124,
R126). -/
def Obligations.EveryWordIsOneRowOrReserved : Prop :=
  ∀ w : Word,
    (∀ i, decode w = .ok i →
      ∃ r ∈ opcodeMap, r.mnemonic = i.mnemonic ∧ r.admits w = true ∧ ∀ r' ∈ opcodeMap, r'.admits w = true → r' = r) ∧
    (∀ e, decode w = .error e → ∀ r ∈ opcodeMap, r.admits w = false)

/-- A word of each family, written out from 30_encoding.md R124, decodes to the command it stands for. -/
def Obligations.OpcodeWordsDecode : Prop :=
  decode 0x00000000#32 = .ok .nop ∧ decode 0x00000F05#32 = .ok (.owRdbyte 15#4) ∧
  decode 0x00000112#32 = .ok (.pwFrame 1#4) ∧ decode 0x00000720#32 = .ok (.bcdDec 7#4) ∧
  decode 0x00000030#32 = .ok .dow ∧ decode 0x00000840#32 = .ok (.chkCrc8 8#4) ∧
  decode 0x00000441#32 = .ok (.chkSum8 4#4)

/-- A reserved word (30_encoding.md R125) is accepted: the word is stored in CMD, BUSY rises, and RESULT, DBUF, every other register
and both line drives stay; and it completes with ILLEGAL and nothing else (R123). -/
def Obligations.ReservedEncodingsEndIllegal : Prop :=
  (∀ w : Word, ReservedWord w ↔ ∃ e, decode w = .error e) ∧
  (∀ (s : State), s.seq = .idle → Writes s .cmd → ReservedWord s.cycle.wdata →
    ∃ t, step s = .next t ∧ t.cmd = s.cycle.wdata ∧ t.busy = true ∧ t.result = s.result ∧ t.dbuf = s.dbuf ∧
      KeptByAccept s t) ∧
  (∀ (s : State), s.seq = .run → s.wait = 0 → Runs s → ReservedWord s.latch.word →
    step s = .next ((s.hostEdge s.cycle).completedWith .illegal false s.result s.dbuf)) ∧
  ErrCode.illegal.code = 6#3

/-- On the completion edge of a running command a step is the meaning of the decoded command (40_common.md R153), at the state after
the host's part of the edge; on another edge of a running command the countdown moves on by one; else only the host's part happens.
Without a write the host's part is the clocked part alone. That a step is one clock edge, that the countdown is a field, and that the
host's part comes first, are the model's choices (log entries 1, 2 and 13). -/
def Obligations.StepRunsLatchedCommand : Prop :=
  ∀ s : State, Runs s →
    (∀ i, s.seq = .run → s.wait = 0 → decode s.latch.word = .ok i → step s = exec i (s.hostEdge s.cycle)) ∧
    (s.seq = .run → s.wait ≠ 0 →
      step s = .next (s.hostEdge s.cycle).advance ∧ (s.hostEdge s.cycle).advance.wait = s.wait - 1) ∧
    (s.seq = .idle → step s = .next (s.hostEdge s.cycle)) ∧
    (s.cycle.wr = false → s.hostEdge s.cycle = s.clockEdge s.cycle)

/-- A word of the opcode table placed by `withFetchWord` is run by the very next step, on the operands the state holds: the model's
choice of how a command is placed (log entry 12). -/
def Obligations.FetchWordRunsOnNextStep : Prop :=
  ∀ (s : State) (w : Nat) (i : Instr), decodeTableWord 32 w = some i →
    step (s.withFetchWord 32 w) = exec i ((s.withFetchWord 32 w).clockEdge (PortCycle.quiet s.clock)) ∧
    (s.withFetchWord 32 w).latch = s.latchOf (BitVec.ofNat 32 w) ∧
    (s.withFetchWord 32 w).cmd = BitVec.ofNat 32 w

/-- Accept (40_common.md R151) and the latched set (R152): a write of CMD while BUSY = 0 stores the word, raises BUSY, clears DONE
and ERR, latches every operand, and keeps OVF, WBUSY, every other register and both line drives; a write of CMD while BUSY = 1 is
dropped and sets WBUSY, on the completion edge too, which is the model's reading (log entry 13); no later edge of the run changes
the latched set. -/
def Obligations.AcceptLatchesOperands : Prop :=
  (∀ s : State, s.seq = .idle → Writes s .cmd →
    ∃ t, step s = .next t ∧ t.cmd = s.cycle.wdata ∧ t.seq = .run ∧ t.busy = true ∧ t.done = false ∧ t.err = .ok ∧
      t.staged = [] ∧ t.ovfSeen = false ∧ t.tick = 0 ∧ t.ovf = s.ovf ∧ t.wbusy = s.wbusy ∧
      t.latch.op = s.cycle.wdata.extractLsb' 0 8 ∧ t.latch.sel = s.cycle.wdata.extractLsb' 8 4 ∧
      t.latch.rsv = s.cycle.wdata.extractLsb' 12 20 ∧ t.latch.arg0 = s.arg0 ∧ t.latch.arg1 = s.arg1 ∧
      t.latch.toz = s.toz ∧ t.latch.dbuf = s.dbuf ∧
      t.latch.tRstl = s.tim0.extractLsb' 0 16 ∧ t.latch.tRrec = s.tim0.extractLsb' 16 16 ∧
      t.latch.tPds = s.tim1.extractLsb' 0 8 ∧ t.latch.tRl = s.tim1.extractLsb' 8 8 ∧
      t.latch.tRs = s.tim1.extractLsb' 16 8 ∧ t.latch.tRslot = s.tim1.extractLsb' 24 8 ∧
      t.latch.tW1l = s.tim2.extractLsb' 0 8 ∧ t.latch.tW1h = s.tim2.extractLsb' 8 8 ∧
      t.latch.tW0l = s.tim2.extractLsb' 16 8 ∧ t.latch.tW0h = s.tim2.extractLsb' 24 8 ∧
      t.latch.tThr = s.tim3.extractLsb' 0 8 ∧ t.latch.tPwmax = s.tim3.extractLsb' 8 8 ∧
      t.latch.tSync = s.tim3.extractLsb' 16 8 ∧ t.latch.tRel = s.tim3.extractLsb' 24 8 ∧
      t.latch.tStart = s.tStart ∧ KeptByAccept s t) ∧
  (∀ s : State, s.seq = .run → Writes s .cmd → ∃ t, step s = .next t ∧ t.cmd = s.cmd ∧ t.wbusy = true) ∧
  (∀ s : State, s.seq = .run → Runs s → ∃ t, step s = .next t ∧ t.latch = s.latch)

/-- When an accepted command completes (40_common.md R156, 00_scope.md R8): a command with no tick `COMPUTE_LAT` edges after accept; a
line command of duration `D` starts tick 0 on the first tick boundary `ISSUE_LAT` edges or more after accept and completes `D` ticks
later; a reserved word has no tick. That the countdown is a field of the state, and which edge is the boundary of tick 0, are the
model's (log entries 2 and 10). -/
def Obligations.AcceptSchedulesCompletion : Prop :=
  (1 ≤ Config.issueLat ∧ Config.issueLat ≤ Config.clkPerUs ∧ 1 ≤ Config.computeLat) ∧
  ∀ s : State, s.seq = .idle → Writes s .cmd →
    ∃ t, step s = .next t ∧
      (t.latchedReport.ticks = none ∨ ReservedWord s.cycle.wdata → t.phase = .untimed ∧ t.wait + 1 = Config.computeLat) ∧
      (∀ d, t.latchedReport.ticks = some d → ∃ lead, t.phase = .issue lead ∧ Config.issueLat ≤ lead ∧
        lead < Config.issueLat + Config.clkPerUs ∧ (t.prescaler + lead) % Config.clkPerUs = 0 ∧
        t.wait + 1 = lead + d * Config.clkPerUs)

/-- Host writes while BUSY = 1, on any edge of the run (10_state.md R48): CMD, LINE and DBUF are dropped and set WBUSY; CTRL,
STATUS, ARG0, ARG1 and TIM0 to TIM4 take effect and do not set WBUSY; RESULT and reserved offsets do nothing. Said of the host's
part of the edge, on which the sequencer's part follows: that order, which decides a write on the completion edge, is the model's
(log entries 1 and 13). -/
def Obligations.HostWritesWhileBusy : Prop :=
  ∀ (s : State) (v : Word), s.seq = .run → s.cycle.wr = true → s.cycle.wdata = v →
    let e := s.clockEdge s.cycle
    (∀ r, Reg.ofAddr s.cycle.addr = r →
      (r = .cmd ∨ r = .line ∨ (∃ k, r = .dbuf k) → s.hostEdge s.cycle = { e with wbusy := true }) ∧
      (r = .ctrl → s.hostEdge s.cycle = { e with ie := v.getLsbD 0, toz := v.getLsbD 1 }) ∧
      (r = .status → s.hostEdge s.cycle =
        { e with
          done := s.done && !v.getLsbD 1
          ovf := s.ovf && !v.getLsbD 2
          wbusy := s.wbusy && !v.getLsbD 3 }) ∧
      (r = .arg0 → s.hostEdge s.cycle = { e with arg0 := v }) ∧
      (r = .arg1 → s.hostEdge s.cycle = { e with arg1 := v }) ∧
      (r = .tim0 → s.hostEdge s.cycle = { e with tim0 := v }) ∧
      (r = .tim1 → s.hostEdge s.cycle = { e with tim1 := v }) ∧
      (r = .tim2 → s.hostEdge s.cycle = { e with tim2 := v }) ∧
      (r = .tim3 → s.hostEdge s.cycle = { e with tim3 := v }) ∧
      (r = .tim4 → s.hostEdge s.cycle = { e with tStart := v.extractLsb' 0 16 }) ∧
      (r = .result ∨ r = .reserved → s.hostEdge s.cycle = e)) ∧
    (∀ r, e.readReg r = s.readReg r ∨ r = .line) ∧ e.owDrv = s.owDrv ∧ e.pwDrv = s.pwDrv

/-- What the host reads: of CMD, ARG0, ARG1, RESULT and TIM0 to TIM4 what the register holds, of CTRL its two bits; and after a write
while BUSY = 0 the value written where the register keeps it, reserved bits 0, RESULT as it was, and every other register of the
window as before, a write of CMD apart (10_state.md R30 to R44). STATUS is `StatusWriteOneToClear`, LINE
`LineShowsSynchronisedPins`, DBUF `DbufBytesPackLittleEndian`, and a write of CMD `AcceptLatchesOperands`. -/
def Obligations.WindowReadback : Prop :=
  ∀ (s : State) (v : Word),
    ((s.writeReg false v .ctrl).readReg .ctrl = v &&& 0x00000003#32 ∧
      (s.writeReg false v .arg0).readReg .arg0 = v ∧ (s.writeReg false v .arg1).readReg .arg1 = v ∧
      (s.writeReg false v .result).readReg .result = s.readReg .result ∧
      (∀ k, (s.writeReg false v (.dbuf k)).readReg (.dbuf k) = v) ∧
      (s.writeReg false v .line).readReg .line &&& 0xFFFFFCFF#32 = v &&& 0x00000003#32 ∧
      (s.writeReg false v .tim0).readReg .tim0 = v ∧ (s.writeReg false v .tim1).readReg .tim1 = v ∧
      (s.writeReg false v .tim2).readReg .tim2 = v ∧ (s.writeReg false v .tim3).readReg .tim3 = v ∧
      (s.writeReg false v .tim4).readReg .tim4 = v &&& 0x0000FFFF#32 ∧
      (s.writeReg false v .reserved).readReg .reserved = 0#32) ∧
    (∀ r r', r ≠ r' → r ≠ .cmd → (s.writeReg false v r).readReg r' = s.readReg r') ∧
    (s.readReg .cmd = s.cmd ∧ s.readReg .result = s.result ∧ s.readReg .arg0 = s.arg0 ∧ s.readReg .arg1 = s.arg1 ∧
      s.readReg .tim0 = s.tim0 ∧ s.readReg .tim1 = s.tim1 ∧ s.readReg .tim2 = s.tim2 ∧ s.readReg .tim3 = s.tim3 ∧
      (s.readReg .tim4).toNat = s.tStart.toNat ∧ (s.readReg .ctrl).getLsbD 0 = s.ie ∧ (s.readReg .ctrl).getLsbD 1 = s.toz ∧
      ∀ j, 2 ≤ j → (s.readReg .ctrl).getLsbD j = false)

/-- A read changes nothing but the read data port, and answers the value before the edge; a second read after an edge with
no write, no completion and no pin change answers the same (20_memory.md R84, R87). That a read in a reset cycle answers the value
before the edge too is the model's choice (log entry 14). -/
def Obligations.ReadsChangeNothing : Prop :=
  (∀ (s : State) (c : PortCycle) (rest : List PortCycle), s.port = c :: rest → c.rd = true → c.wr = false →
    ∃ t t', step s = .next t ∧ step { s with port := { c with rd := false } :: rest } = .next t' ∧
      t = { t' with rdata := s.readReg (Reg.ofAddr c.addr) }) ∧
  (∀ (s t : State) (r : Reg), (s.seq = .run → s.wait ≠ 0) → Runs s → s.cycle.wr = false → step s = .next t →
    (r = .line → s.owSync.first = s.owSync.second ∧ s.pwSync.first = s.pwSync.second ∧ ∀ x, t.driveLow x = s.driveLow x) →
    t.readReg r = s.readReg r)

/-- The machine never stops: a step answers a next state, but for the port cycle that asserts both strobes, which is refused
(20_memory.md R84; 93_implementation_defined.md section 1: no behaviour is stuck), in a reset cycle too, which is the model's
reading (log entry 15). -/
def Obligations.StepAnswersUnlessBothStrobes : Prop :=
  ∀ s : State,
    (s.cycle.rd = true → s.cycle.wr = true → step s = .refused .readAndWrite) ∧
    ((s.cycle.rd && s.cycle.wr) = false → ∃ t, step s = .next t)

/-- STATUS as the host reads it: BUSY at bit 0, DONE at 1, OVF at 2, WBUSY at 3, the error code at 10:8, every other bit 0; and a
host write of it clears exactly the bits of DONE, OVF and WBUSY written as 1, while BUSY, ERR and all else stay (10_state.md R33,
R45). -/
def Obligations.StatusWriteOneToClear : Prop :=
  (∀ s : State, ((s.readReg .status).getLsbD 0 = true ↔ s.seq = .run) ∧ (s.readReg .status).getLsbD 1 = s.done ∧
    (s.readReg .status).getLsbD 2 = s.ovf ∧ (s.readReg .status).getLsbD 3 = s.wbusy ∧
    (s.readReg .status).extractLsb' 8 3 = s.err.code ∧
    ∀ j, (4 ≤ j ∧ j ≤ 7) ∨ 11 ≤ j → (s.readReg .status).getLsbD j = false) ∧
  ∀ (s : State) (b : Bool) (v : Word),
    (s.writeReg b v .status).readReg .status = s.readReg .status &&& ~~~(v &&& 0x0000000E#32) ∧
    ∃ d o w, s.writeReg b v .status = { s with done := d, ovf := o, wbusy := w }

/-- A command that completes with an error other than CORRUPT writes no RESULT byte and no DBUF byte; its only effects are the
STATUS updates of completion (40_common.md R155). -/
def Obligations.FailedCommandCommitsNothing : Prop :=
  ∀ (i : Instr) (s : State), ∃ t, exec i s = .next t ∧
    (t.err ≠ .ok → t.err ≠ .corrupt → ∃ ovf, t = s.completedWith t.err ovf s.result s.dbuf)

/-- What a completing command may change: besides STATUS and the sequencer, only RESULT and DBUF, and those only where its rule
says so (10_state.md R37, R39; 40_common.md R154). -/
def Obligations.CommandEffectsAreConfined : Prop :=
  ∀ (i : Instr) (s : State), ∃ t ovf, exec i s = .next t ∧ t = s.completedWith t.err ovf t.result t.dbuf ∧
    (i = .nop ∨ i = .owWrbit ∨ i = .owWrbyte ∨ i = .pwSync ∨ (∃ sel, i = .pwFrame sel) → t.result = s.result) ∧
    (∀ j : BitVec 4, i ≠ .owRdbyte j → (∀ sel, i = .pwFrame sel → 5 ≤ j.toNat) → t.dbufByte j = s.dbufByte j)

/-- NOP (40_common.md R160): only the word 0 is NOP, every other word with OP 0 is reserved; it completes OK with no tick, no line
activity and no staged write. From STATUS = 0 its accept leaves STATUS = 1 (BUSY) with NOP latched, and from that accepted state, the
premise of the last clause, its completion leaves STATUS = 2. -/
def Obligations.NopCompletes : Prop :=
  (∀ w : Word, cmdOp w = 0x00#8 →
    (w = 0x00000000#32 ∧ decode w = .ok .nop) ∨ (w ≠ 0x00000000#32 ∧ EndsIllegal w)) ∧
  (∀ s : State, exec .nop s = .next (s.completedWith .ok false s.result s.dbuf) ∧ (commandReport .nop s).ticks = none ∧
    ∀ L x t, commandDrive .nop L x t = false) ∧
  (∀ s : State, s.readReg .status = 0x00000000#32 → Writes s .cmd → s.cycle.wdata = 0x00000000#32 →
    ∃ t, step s = .next t ∧ t.readReg .status = 0x00000001#32 ∧ decode t.latch.word = .ok .nop) ∧
  (∀ s t : State, s.readReg .status = 0x00000001#32 → exec .nop s = .next t → t.readReg .status = 0x00000002#32)

/-- OW_RESET (41_single_wire.md R202): the encoding, the waveform, the presence sample into RESULT, the duration, and BADCFG. -/
def Obligations.OwResetReportsPresence : Prop :=
  (∀ w : Word, cmdOp w = 0x01#8 →
    (w = 0x00000001#32 ∧ decode w = .ok .owReset) ∨ (w ≠ 0x00000001#32 ∧ EndsIllegal w)) ∧
  (∀ s : State, s.owDrv = false → 1 ≤ s.latch.tRstl.toNat → 1 ≤ s.latch.tRrec.toNat →
    exec .owReset s = .next (s.completedWith .ok false
      (if s.ext .ow (s.latch.tRstl.toNat + s.latch.tPds.toNat) = false then 1#32 else 0#32) s.dbuf) ∧
    (commandReport .owReset s).ticks = some (s.latch.tRstl.toNat + s.latch.tPds.toNat + s.latch.tRrec.toNat)) ∧
  (∀ s : State, s.owDrv = true ∨ s.latch.tRstl.toNat = 0 ∨ s.latch.tRrec.toNat = 0 →
    exec .owReset s = .next (s.completedWith .badcfg false s.result s.dbuf) ∧ (commandReport .owReset s).ticks = none) ∧
  (∀ L t, (commandDrive .owReset L .ow t = true ↔ t < L.tRstl.toNat) ∧ commandDrive .owReset L .pw t = false)

/-- OW_WRBIT (41_single_wire.md R203, with the write slot of R201): the encoding, the slot of the operand bit, its length, nothing
written, and BADCFG. -/
def Obligations.OwWrbitDrivesOneSlot : Prop :=
  (∀ w : Word, cmdOp w = 0x02#8 →
    (w = 0x00000002#32 ∧ decode w = .ok .owWrbit) ∨ (w ≠ 0x00000002#32 ∧ EndsIllegal w)) ∧
  (∀ s : State, s.owDrv = false → 1 ≤ s.latch.tW1l.toNat → 1 ≤ s.latch.tW1h.toNat → 1 ≤ s.latch.tW0l.toNat →
    1 ≤ s.latch.tW0h.toNat →
    exec .owWrbit s = .next (s.completedWith .ok false s.result s.dbuf) ∧
    (commandReport .owWrbit s).ticks = some (if s.latch.arg0.getLsbD 0 = true
      then s.latch.tW1l.toNat + s.latch.tW1h.toNat else s.latch.tW0l.toNat + s.latch.tW0h.toNat)) ∧
  (∀ s : State, s.owDrv = true ∨ s.latch.tW1l.toNat = 0 ∨ s.latch.tW1h.toNat = 0 ∨ s.latch.tW0l.toNat = 0 ∨
    s.latch.tW0h.toNat = 0 →
    exec .owWrbit s = .next (s.completedWith .badcfg false s.result s.dbuf) ∧ (commandReport .owWrbit s).ticks = none) ∧
  (∀ L t, (commandDrive .owWrbit L .ow t = true ↔
      t < if L.arg0.getLsbD 0 = true then L.tW1l.toNat else L.tW0l.toNat) ∧ commandDrive .owWrbit L .pw t = false)

/-- OW_RDBIT (41_single_wire.md R204, with the read slot of R200): the encoding, the low part of the slot, the sample into RESULT,
the duration, and BADCFG. -/
def Obligations.OwRdbitSamplesWindow : Prop :=
  (∀ w : Word, cmdOp w = 0x03#8 →
    (w = 0x00000003#32 ∧ decode w = .ok .owRdbit) ∨ (w ≠ 0x00000003#32 ∧ EndsIllegal w)) ∧
  (∀ s : State, s.owDrv = false → 1 ≤ s.latch.tRl.toNat →
    s.latch.tRl.toNat + s.latch.tRs.toNat + 1 ≤ s.latch.tRslot.toNat →
    exec .owRdbit s = .next (s.completedWith .ok false
      (if s.ext .ow (s.latch.tRl.toNat + s.latch.tRs.toNat) = true then 1#32 else 0#32) s.dbuf) ∧
    (commandReport .owRdbit s).ticks = some s.latch.tRslot.toNat) ∧
  (∀ s : State, s.owDrv = true ∨ s.latch.tRl.toNat = 0 ∨
    s.latch.tRslot.toNat < s.latch.tRl.toNat + s.latch.tRs.toNat + 1 →
    exec .owRdbit s = .next (s.completedWith .badcfg false s.result s.dbuf) ∧ (commandReport .owRdbit s).ticks = none) ∧
  (∀ L t, (commandDrive .owRdbit L .ow t = true ↔ t < L.tRl.toNat) ∧ commandDrive .owRdbit L .pw t = false)

/-- OW_WRBYTE (41_single_wire.md R205): the encoding, eight slots with no gap, least-significant bit first, each low for its bit's
time, the duration by the number of 1 bits, nothing written, and BADCFG. -/
def Obligations.OwWrbyteDrivesEightSlots : Prop :=
  (∀ w : Word, cmdOp w = 0x04#8 →
    (w = 0x00000004#32 ∧ decode w = .ok .owWrbyte) ∨ (w ≠ 0x00000004#32 ∧ EndsIllegal w)) ∧
  (∀ s : State, s.owDrv = false → 1 ≤ s.latch.tW1l.toNat → 1 ≤ s.latch.tW1h.toNat → 1 ≤ s.latch.tW0l.toNat →
    1 ≤ s.latch.tW0h.toNat →
    exec .owWrbyte s = .next (s.completedWith .ok false s.result s.dbuf) ∧
    (commandReport .owWrbyte s).ticks = some
      ((List.range 8).countP (fun k => s.latch.arg0.getLsbD k) * (s.latch.tW1l.toNat + s.latch.tW1h.toNat) +
        (8 - (List.range 8).countP (fun k => s.latch.arg0.getLsbD k)) * (s.latch.tW0l.toNat + s.latch.tW0h.toNat))) ∧
  (∀ s : State, s.owDrv = true ∨ s.latch.tW1l.toNat = 0 ∨ s.latch.tW1h.toNat = 0 ∨ s.latch.tW0l.toNat = 0 ∨
    s.latch.tW0h.toNat = 0 →
    exec .owWrbyte s = .next (s.completedWith .badcfg false s.result s.dbuf) ∧ (commandReport .owWrbyte s).ticks = none) ∧
  (∀ (L : Latch) (t : Nat), commandDrive .owWrbyte L .pw t = false ∧
    ∀ k, k < 8 →
      let len := fun j => if L.arg0.getLsbD j = true then L.tW1l.toNat + L.tW1h.toNat else L.tW0l.toNat + L.tW0h.toNat
      let start := ((List.range k).map len).sum
      start ≤ t → t < start + len k →
        (commandDrive .owWrbyte L .ow t = true ↔
          t < start + if L.arg0.getLsbD k = true then L.tW1l.toNat else L.tW0l.toNat))

/-- OW_RDBYTE (41_single_wire.md R206): the encoding, eight read slots, the first bit received in bit 0, the byte in RESULT and in
`DBUF[i]` and nowhere else, the duration, and BADCFG. -/
def Obligations.OwRdbyteReadsLeastBitFirst : Prop :=
  (∀ w : Word, cmdOp w = 0x05#8 →
    (cmdRsv w = 0#20 ∧ decode w = .ok (.owRdbyte (cmdSel w))) ∨ (cmdRsv w ≠ 0#20 ∧ EndsIllegal w)) ∧
  (∀ (i : BitVec 4) (s : State), s.owDrv = false → 1 ≤ s.latch.tRl.toNat →
    s.latch.tRl.toNat + s.latch.tRs.toNat + 1 ≤ s.latch.tRslot.toNat →
    ∃ byte : Byte,
      (∀ k, k < 8 → byte.getLsbD k = s.ext .ow (k * s.latch.tRslot.toNat + s.latch.tRl.toNat + s.latch.tRs.toNat)) ∧
      exec (.owRdbyte i) s = .next (s.completedWith .ok false (byte.setWidth 32) (s.dbuf.set i.toNat byte i.isLt)) ∧
      (commandReport (.owRdbyte i) s).ticks = some (8 * s.latch.tRslot.toNat)) ∧
  (∀ (i : BitVec 4) (s : State), s.owDrv = true ∨ s.latch.tRl.toNat = 0 ∨
    s.latch.tRslot.toNat < s.latch.tRl.toNat + s.latch.tRs.toNat + 1 →
    exec (.owRdbyte i) s = .next (s.completedWith .badcfg false s.result s.dbuf) ∧
    (commandReport (.owRdbyte i) s).ticks = none) ∧
  (∀ (i : BitVec 4) (L : Latch) (t : Nat), commandDrive (.owRdbyte i) L .pw t = false ∧
    ∀ k, k < 8 → k * L.tRslot.toNat ≤ t → t < k * L.tRslot.toNat + L.tRslot.toNat → L.tRl.toNat ≤ L.tRslot.toNat →
      (commandDrive (.owRdbyte i) L .ow t = true ↔ t < k * L.tRslot.toNat + L.tRl.toNat))

/-- PW_SYNC (42_pulse_width.md R247, with Sync of R242): the encoding; OK exactly through a low, a high and a low, each found
within T_SYNC ticks of the tick after the one before; NODEV at the first wait that expires; BADCFG; nothing written or driven. -/
def Obligations.PwSyncWaitsLowHighLow : Prop :=
  (∀ w : Word, cmdOp w = 0x10#8 →
    (w = 0x00000010#32 ∧ decode w = .ok .pwSync) ∨ (w ≠ 0x00000010#32 ∧ EndsIllegal w)) ∧
  (∀ s : State, s.pwDrv = false → 1 ≤ s.latch.tSync.toNat →
    let b := s.latch.tSync.toNat
    let line := s.ext .pw
    (∀ t1 t2 t3, FirstAt line false 0 t1 → t1 < b → FirstAt line true (t1 + 1) t2 → t2 < t1 + 1 + b →
      FirstAt line false (t2 + 1) t3 → t3 < t2 + 1 + b →
      exec .pwSync s = .next (s.completedWith .ok false s.result s.dbuf) ∧ (commandReport .pwSync s).ticks = some (t3 + 1)) ∧
    (Holds line true 0 b →
      exec .pwSync s = .next (s.completedWith .nodev false s.result s.dbuf) ∧ (commandReport .pwSync s).ticks = some b) ∧
    (∀ t1, FirstAt line false 0 t1 → t1 < b → Holds line false (t1 + 1) (t1 + 1 + b) →
      exec .pwSync s = .next (s.completedWith .nodev false s.result s.dbuf) ∧
      (commandReport .pwSync s).ticks = some (t1 + 1 + b)) ∧
    (∀ t1 t2, FirstAt line false 0 t1 → t1 < b → FirstAt line true (t1 + 1) t2 → t2 < t1 + 1 + b →
      Holds line true (t2 + 1) (t2 + 1 + b) →
      exec .pwSync s = .next (s.completedWith .nodev false s.result s.dbuf) ∧
      (commandReport .pwSync s).ticks = some (t2 + 1 + b))) ∧
  (∀ s : State, s.pwDrv = true ∨ s.latch.tSync.toNat = 0 →
    exec .pwSync s = .next (s.completedWith .badcfg false s.result s.dbuf) ∧ (commandReport .pwSync s).ticks = none) ∧
  (∀ L x t, commandDrive .pwSync L x t = false)

/-- PW_BIT (42_pulse_width.md R248, with MeasureBit of R240 and the modes of R241, R243): the encoding; the width and the bit of a
pulse; an overflow, as TOZ says; TIMEOUT when no rising edge comes; BADCFG; nothing driven. -/
def Obligations.PwBitMeasuresPulse : Prop :=
  (∀ w : Word, cmdOp w = 0x11#8 →
    (w = 0x00000011#32 ∧ decode w = .ok .pwBit) ∨ (w ≠ 0x00000011#32 ∧ EndsIllegal w)) ∧
  (∀ s : State, s.pwDrv = false → 1 ≤ s.latch.tSync.toNat → 1 ≤ s.latch.tPwmax.toNat →
    let line := s.ext .pw
    (∀ r q, FirstAt line true 0 r → r < s.latch.tSync.toNat → FirstAt line false (r + 1) q →
      q ≤ r + s.latch.tPwmax.toNat →
      exec .pwBit s = .next (s.completedWith .ok false
        (BitVec.ofNat 32 (256 * (q - r) + if s.latch.tThr.toNat < q - r then 1 else 0)) s.dbuf) ∧
      (commandReport .pwBit s).ticks = some (q + 1)) ∧
    (∀ r, FirstAt line true 0 r → r < s.latch.tSync.toNat → Holds line true r (r + s.latch.tPwmax.toNat + 1) →
      exec .pwBit s = .next (if s.latch.toz = true then s.completedWith .ok true 0#32 s.dbuf
        else s.completedWith .timeout true s.result s.dbuf) ∧
      (commandReport .pwBit s).ticks = some (r + s.latch.tPwmax.toNat + 1)) ∧
    (Holds line false 0 s.latch.tSync.toNat →
      exec .pwBit s = .next (s.completedWith .timeout false s.result s.dbuf) ∧
      (commandReport .pwBit s).ticks = some s.latch.tSync.toNat)) ∧
  (∀ s : State, s.pwDrv = true ∨ s.latch.tSync.toNat = 0 ∨ s.latch.tPwmax.toNat = 0 →
    exec .pwBit s = .next (s.completedWith .badcfg false s.result s.dbuf) ∧ (commandReport .pwBit s).ticks = none) ∧
  (∀ L x t, commandDrive .pwBit L x t = false)

/-- A frame sent on the PW line is captured (42_pulse_width.md R249, R246, R244, R241): the line shows the sync phase, after the
start signal (START = 1) or at once (START = 0), and forty pulses, pulse `j` from tick `r j` to tick `q j`; a pulse that hits the
bound needs TOZ = 1. Then `DBUF[k]` bit `7 - m` says whether pulse `8k + m` stayed inside the bound and is longer than T_THR, for
the bytes 0 to 4, OVF takes in whether one hit the bound, and nothing else changes. -/
def Obligations.PwFrameCapturesFortyBits : Prop :=
  ∀ (s : State) (sel : BitVec 4) (t3 : Nat) (r q : Nat → Nat) (hit : Nat → Bool),
    FrameReady s sel → FrameShown s sel 40 t3 r q hit →
    ∃ t, exec (.pwFrame sel) s = .next t ∧ t = s.completedWith .ok ((List.range 40).any hit) s.result t.dbuf ∧
      (∀ k m, k < 5 → m < 8 → (t.dbufByte (BitVec.ofNat 4 k)).getLsbD (7 - m) =
        (!hit (8 * k + m) && decide (s.latch.tThr.toNat < q (8 * k + m) - r (8 * k + m)))) ∧
      (∀ j : BitVec 4, 5 ≤ j.toNat → t.dbufByte j = s.dbufByte j) ∧
      (commandReport (.pwFrame sel) s).ticks = some (q 39 + 1)

/-- The encoding of PW_FRAME and how it fails (42_pulse_width.md R249): RSV not 0 or a SEL above 1 is ILLEGAL, a driven line or illegal timing BADCFG; each of the three
sync waits ends in NODEV when it expires; after `n` captured bits a start wait that expires ends in TIMEOUT, and so does a hit bound
with TOZ = 0, with OVF. A failed frame leaves RESULT and every byte of DBUF. It drives PW only during the start signal. -/
def Obligations.PwFrameFailsWhole : Prop :=
  (∀ w : Word, cmdOp w = 0x12#8 →
    (cmdRsv w = 0#20 ∧ (cmdSel w).toNat ≤ 1 ∧ decode w = .ok (.pwFrame (cmdSel w))) ∨
      ((cmdRsv w ≠ 0#20 ∨ 1 < (cmdSel w).toNat) ∧ EndsIllegal w)) ∧
  (∀ (s : State) (sel : BitVec 4), 1 < sel.toNat →
    exec (.pwFrame sel) s = .next (s.completedWith .illegal false s.result s.dbuf)) ∧
  (∀ (s : State) (sel : BitVec 4), sel.toNat ≤ 1 →
    s.pwDrv = true ∨ s.latch.tSync.toNat = 0 ∨ s.latch.tPwmax.toNat = 0 ∨ (sel = 1#4 ∧ s.latch.tStart.toNat = 0) →
    exec (.pwFrame sel) s = .next (s.completedWith .badcfg false s.result s.dbuf)) ∧
  (∀ (s : State) (sel : BitVec 4), FrameReady s sel →
    let b := s.latch.tSync.toNat
    let line := s.ext .pw
    let s0 := frameSyncTick s.latch sel
    let lost := exec (.pwFrame sel) s = .next (s.completedWith .nodev false s.result s.dbuf)
    (Holds line true s0 (s0 + b) → lost ∧ (commandReport (.pwFrame sel) s).ticks = some (s0 + b)) ∧
    (∀ t1, FirstAt line false s0 t1 → t1 < s0 + b → Holds line false (t1 + 1) (t1 + 1 + b) →
      lost ∧ (commandReport (.pwFrame sel) s).ticks = some (t1 + 1 + b)) ∧
    (∀ t1 t2, FirstAt line false s0 t1 → t1 < s0 + b → FirstAt line true (t1 + 1) t2 → t2 < t1 + 1 + b →
      Holds line true (t2 + 1) (t2 + 1 + b) → lost ∧ (commandReport (.pwFrame sel) s).ticks = some (t2 + 1 + b))) ∧
  (∀ (s : State) (sel : BitVec 4) (n t3 : Nat) (r q : Nat → Nat) (hit : Nat → Bool), FrameReady s sel → n < 40 →
    FrameShown s sel n t3 r q hit →
    let start := bitStartTick t3 q n
    (Holds (s.ext .pw) false start (start + s.latch.tSync.toNat) →
      exec (.pwFrame sel) s = .next (s.completedWith .timeout ((List.range n).any hit) s.result s.dbuf) ∧
      (commandReport (.pwFrame sel) s).ticks = some (start + s.latch.tSync.toNat)) ∧
    (s.latch.toz = false → PulseShown s.latch (s.ext .pw) start (r n) (q n) true →
      exec (.pwFrame sel) s = .next (s.completedWith .timeout true s.result s.dbuf) ∧
      (commandReport (.pwFrame sel) s).ticks = some (q n + 1))) ∧
  (∀ (sel : BitVec 4) (L : Latch) (t : Nat), commandDrive (.pwFrame sel) L .ow t = false ∧
    (commandDrive (.pwFrame sel) L .pw t = true ↔ sel.getLsbD 0 = true ∧ t < L.tStart.toNat))

/-- Every PW command ends, whatever the line does, within the bounds of 42_pulse_width.md R250. -/
def Obligations.PwDurationsAreBounded : Prop :=
  ∀ (s : State) (d : Nat),
    ((commandReport .pwSync s).ticks = some d → d ≤ 3 * s.latch.tSync.toNat) ∧
    ((commandReport .pwBit s).ticks = some d → d ≤ s.latch.tSync.toNat + s.latch.tPwmax.toNat) ∧
    ((commandReport (.pwFrame 0#4) s).ticks = some d →
      d ≤ 3 * s.latch.tSync.toNat + 40 * (s.latch.tSync.toNat + s.latch.tPwmax.toNat)) ∧
    ((commandReport (.pwFrame 1#4) s).ticks = some d →
      d ≤ s.latch.tStart.toNat + s.latch.tRel.toNat + 3 * s.latch.tSync.toNat +
        40 * (s.latch.tSync.toNat + s.latch.tPwmax.toNat))

/-- BCD_DEC (43_bcd.md R281 with the ranges of R280): the clock-halt mask of SEC, the digit check, the century of YEAR, the range
check; INVALID leaves RESULT; SEL[3] = 1 is ILLEGAL. -/
def Obligations.BcdDecChecksAndDecodes : Prop :=
  (∀ w : Word, cmdOp w = 0x20#8 →
    (cmdRsv w = 0#20 ∧ (cmdSel w).toNat ≤ 7 ∧ decode w = .ok (.bcdDec (cmdSel w))) ∨
      ((cmdRsv w ≠ 0#20 ∨ 7 < (cmdSel w).toNat) ∧ EndsIllegal w)) ∧
  (∀ (s : State) (sel : BitVec 4), 7 < sel.toNat →
    exec (.bcdDec sel) s = .next (s.completedWith .illegal false s.result s.dbuf)) ∧
  (∀ (s : State) (sel : BitVec 4), sel.toNat ≤ 7 →
    let byte := s.latch.arg0.toNat % 256
    let b := if sel = 1#4 then byte % 128 else byte
    let v := (if sel = 7#4 then 2000 else 0) + (b / 16 * 10 + b % 16)
    (b / 16 ≤ 9 → b % 16 ≤ 9 → InBcdRange sel.toNat v →
      exec (.bcdDec sel) s = .next (s.completedWith .ok false (BitVec.ofNat 32 v) s.dbuf)) ∧
    (¬ (b / 16 ≤ 9 ∧ b % 16 ≤ 9 ∧ InBcdRange sel.toNat v) →
      exec (.bcdDec sel) s = .next (s.completedWith .invalid false s.result s.dbuf)))

/-- BCD_ENC (43_bcd.md R282 with the ranges of R280): the range check on all 32 bits, the century of YEAR, the clock-halt bit of SEC
at 0; INVALID leaves RESULT; SEL[3] = 1 is ILLEGAL. -/
def Obligations.BcdEncChecksAndEncodes : Prop :=
  (∀ w : Word, cmdOp w = 0x21#8 →
    (cmdRsv w = 0#20 ∧ (cmdSel w).toNat ≤ 7 ∧ decode w = .ok (.bcdEnc (cmdSel w))) ∨
      ((cmdRsv w ≠ 0#20 ∨ 7 < (cmdSel w).toNat) ∧ EndsIllegal w)) ∧
  (∀ (s : State) (sel : BitVec 4), 7 < sel.toNat →
    exec (.bcdEnc sel) s = .next (s.completedWith .illegal false s.result s.dbuf)) ∧
  (∀ (s : State) (sel : BitVec 4), sel.toNat ≤ 7 →
    let v := s.latch.arg0.toNat
    let u := v - if sel = 7#4 then 2000 else 0
    (InBcdRange sel.toNat v →
      exec (.bcdEnc sel) s = .next (s.completedWith .ok false (BitVec.ofNat 32 (u / 10 * 16 + u % 10)) s.dbuf) ∧
      (sel = 1#4 → u / 10 * 16 + u % 10 < 128)) ∧
    (¬ InBcdRange sel.toNat v → exec (.bcdEnc sel) s = .next (s.completedWith .invalid false s.result s.dbuf)))

/-- The codec's round trip on commands (43_bcd.md R283): what BCD_ENC gives for a value of the field's range, BCD_DEC gives back;
and what BCD_DEC accepts, BCD_ENC gives back, but for the clock-halt bit of SEC. -/
def Obligations.BcdRoundTrip : Prop :=
  (∀ (sel : BitVec 4) (s s' t : State), sel.toNat ≤ 7 → InBcdRange sel.toNat s.latch.arg0.toNat →
    exec (.bcdEnc sel) s = .next t → s'.latch.arg0 = t.result →
    t.err = .ok ∧ ∃ t', exec (.bcdDec sel) s' = .next t' ∧ t'.err = .ok ∧ t'.result = s.latch.arg0) ∧
  (∀ (sel : BitVec 4) (s s' t : State), sel.toNat ≤ 7 → exec (.bcdDec sel) s = .next t → t.err = .ok →
    s'.latch.arg0 = t.result →
    ∃ t', exec (.bcdEnc sel) s' = .next t' ∧ t'.err = .ok ∧
      t'.result = s.latch.arg0 &&& (if sel = 1#4 then 0x0000007F#32 else 0x000000FF#32))

/-- DOW (44_day_of_week.md R311 with the formula of R310): the operands, their ranges, the result, and INVALID, which leaves
RESULT. -/
def Obligations.DowComputesWeekday : Prop :=
  (∀ w : Word, cmdOp w = 0x30#8 →
    (w = 0x00000030#32 ∧ decode w = .ok .dow) ∨ (w ≠ 0x00000030#32 ∧ EndsIllegal w)) ∧
  (∀ s : State,
    let y := s.latch.arg0.toNat
    let m := s.latch.arg1.toNat % 256
    let d := s.latch.arg1.toNat / 256 % 256
    let m' := if m < 3 then m + 12 else m
    let y' := if m < 3 then y - 1 else y
    let K := y' % 100
    let J := y' / 100
    let h := (d + (13 * (m' + 1)) / 5 + K + K / 4 + J / 4 + 5 * J) % 7
    (1 ≤ y → y ≤ 9999 → 1 ≤ m → m ≤ 12 → 1 ≤ d → d ≤ 31 →
      exec .dow s = .next (s.completedWith .ok false (BitVec.ofNat 32 ((h + 5) % 7 + 1)) s.dbuf)) ∧
    (y < 1 ∨ 9999 < y ∨ m < 1 ∨ 12 < m ∨ d < 1 ∨ 31 < d →
      exec .dow s = .next (s.completedWith .invalid false s.result s.dbuf)))

/-- The three vectors of 44_day_of_week.md R313, as results of the command. -/
def Obligations.DowGivesKiwiVectors : Prop :=
  ∀ s : State,
    (s.latch.arg0 = 2024#32 → s.latch.arg1 = 0x00000101#32 →
      exec .dow s = .next (s.completedWith .ok false 1#32 s.dbuf)) ∧
    (s.latch.arg0 = 2000#32 → s.latch.arg1 = 0x00000103#32 →
      exec .dow s = .next (s.completedWith .ok false 3#32 s.dbuf)) ∧
    (s.latch.arg0 = 2024#32 → s.latch.arg1 = 0x00001D02#32 →
      exec .dow s = .next (s.completedWith .ok false 4#32 s.dbuf))

/-- The engine gives the weekday of the proleptic Gregorian calendar for every accepted date: the number of days since 0001-01-01,
a Monday, counted with leap years and month lengths (44_day_of_week.md R314, from general knowledge; a day beyond the month's
length is that many days into the month, R311). -/
def Obligations.DowIsProlepticGregorian : Prop :=
  ∀ y m d : Nat, 1 ≤ y → y ≤ 9999 → 1 ≤ m → m ≤ 12 → 1 ≤ d → d ≤ 31 →
    dayOfWeek y m d = (daysBeforeYear y + daysBeforeMonth y m + (d - 1)) % 7 + 1

/-- CHK_CRC8 (45_checksum.md R331 with the CRC of R330): the CRC of the first `n` bytes goes to RESULT on a match and on a
mismatch, with OK and CORRUPT; DBUF stays; RSV not 0 is ILLEGAL; and bytes with their check byte have CRC 0 exactly when the check
byte agrees. -/
def Obligations.ChkCrc8Validates : Prop :=
  (∀ w : Word, cmdOp w = 0x40#8 →
    (cmdRsv w = 0#20 ∧ decode w = .ok (.chkCrc8 (cmdSel w))) ∨ (cmdRsv w ≠ 0#20 ∧ EndsIllegal w)) ∧
  (∀ (s : State) (n : BitVec 4),
    let c := crcOfBits ((List.finRange 16).filterMap fun j => if j.val < n.toNat then some s.latch.dbuf[j] else none)
    exec (.chkCrc8 n) s = .next (s.completedWith (if c = s.latch.dbuf[n.toFin] then .ok else .corrupt) false
      (c.setWidth 32) s.dbuf)) ∧
  (∀ (bytes : List Byte) (check : Byte), crcOfBits (bytes ++ [check]) = 0#8 ↔ crcOfBits bytes = check)

/-- CHK_SUM8 (45_checksum.md R333 with the sum of R332): the sum modulo 256 of the first `n` bytes goes to RESULT on a match and on
a mismatch, with OK and CORRUPT; DBUF stays; RSV not 0 is ILLEGAL. -/
def Obligations.ChkSum8Validates : Prop :=
  (∀ w : Word, cmdOp w = 0x41#8 →
    (cmdRsv w = 0#20 ∧ decode w = .ok (.chkSum8 (cmdSel w))) ∨ (cmdRsv w ≠ 0#20 ∧ EndsIllegal w)) ∧
  (∀ (s : State) (n : BitVec 4),
    let c := ((List.finRange 16).map fun j => if j.val < n.toNat then s.latch.dbuf[j].toNat else 0).sum % 256
    exec (.chkSum8 n) s = .next (s.completedWith (if c = s.latch.dbuf[n.toFin].toNat then .ok else .corrupt) false
      (BitVec.ofNat 32 c) s.dbuf))

/-- The CRC of bytes followed by their own CRC is 0, for any bytes; and CHK_CRC8 of KIWI's nine-byte frame with any one of its 72
bits flipped is not 0 (45_checksum.md R334; the residue is general knowledge there). -/
def Obligations.CrcResidueIsZero : Prop :=
  (∀ bytes : List Byte, crc8 (bytes ++ [crc8 bytes]) = 0#8) ∧
  (∀ frame : List Byte, frame = [0x50#8, 0x05#8, 0x4B#8, 0x46#8, 0x7F#8, 0xFF#8, 0x0C#8, 0x10#8, 0x1C#8] →
    crc8 frame = 0#8 ∧
    ∀ j k, j < 9 → k < 8 → crc8 (frame.modify j fun b => b ^^^ (1#8 <<< k)) ≠ 0#8)

/-- CHK_CRC8 reports CORRUPT after any single-bit change of a frame that passes: one flipped bit of a byte it covers, or of the
check byte (45_checksum.md R330, R331). -/
def Obligations.CrcDetectsSingleBitFlip : Prop :=
  ∀ (s s' t : State) (n : BitVec 4) (j k : Nat) (hj : j < 16), k < 8 → j ≤ n.toNat →
    s'.latch.dbuf = s.latch.dbuf.set j (s.latch.dbuf[j] ^^^ (1#8 <<< k)) hj →
    exec (.chkCrc8 n) s = .next t → t.err = .ok →
    ∃ t', exec (.chkCrc8 n) s' = .next t' ∧ t'.err = .corrupt

/-- CHK_SUM8 reports CORRUPT after any single-bit change of a byte it covers in a frame that passes, because the sum changes by
`2^k` or `-2^k` modulo 256 (45_checksum.md R335). -/
def Obligations.SumDetectsSingleBitFlip : Prop :=
  ∀ (s s' t : State) (n : BitVec 4) (j k : Nat) (hj : j < 16), k < 8 → j < n.toNat →
    s'.latch.dbuf = s.latch.dbuf.set j (s.latch.dbuf[j] ^^^ (1#8 <<< k)) hj →
    exec (.chkSum8 n) s = .next t → t.err = .ok →
    ∃ t', exec (.chkSum8 n) s' = .next t' ∧ t'.err = .corrupt ∧
      (t'.result.toNat = (t.result.toNat + 2 ^ k) % 256 ∨ t'.result.toNat = (t.result.toNat + 256 - 2 ^ k) % 256)

/-- The interrupt is the level CTRL.IE & STATUS.DONE, in the bits the host reads; every completion sets DONE, with any code
(60_exceptions.md R353). -/
def Obligations.IrqIsEnableAndDone : Prop :=
  (∀ s : State, s.irq = ((s.readReg .ctrl).getLsbD 0 && (s.readReg .status).getLsbD 1)) ∧
  (∀ (i : Instr) (s : State), ∃ t, exec i s = .next t ∧ t.done = true ∧ (t.irq = s.ie)) ∧
  (∀ s : State, s.seq = .run → s.wait = 0 → Runs s → ∃ t, step s = .next t ∧ t.done = true)

/-- The interrupt is cleared by writing 1 to DONE or by the accept of the next command; CTRL.IE = 0 masks it and leaves DONE; OVF
and WBUSY do not raise it (60_exceptions.md R354). -/
def Obligations.IrqClearedOrMasked : Prop :=
  (∀ s : State, (s.seq = .run → s.wait ≠ 0) → Writes s .status → s.cycle.wdata.getLsbD 1 = true →
    ∃ t, step s = .next t ∧ t.irq = false) ∧
  (∀ s : State, s.seq = .idle → Writes s .cmd → ∃ t, step s = .next t ∧ t.irq = false ∧ t.done = false) ∧
  (∀ s : State, Writes s .ctrl → s.cycle.wdata.getLsbD 0 = false →
    ∃ t, step s = .next t ∧ t.irq = false ∧ ((s.seq = .run → s.wait ≠ 0) → t.done = s.done)) ∧
  (∀ (s : State) (o w : Bool), State.irq { s with ovf := o, wbusy := w } = s.irq)

/-- A hardware set wins over a clear on the same edge: DONE and a set OVF are 1 after the completion edge whatever the host writes
to STATUS on it; a dropped write leaves WBUSY at 1; one access cannot do both (60_exceptions.md R355). That a write on the completion
edge is a dropped one is the model's reading (log entry 13). -/
def Obligations.SetWinsOverClear : Prop :=
  (∀ s : State, s.seq = .run → s.wait = 0 → Writes s .status →
    ∃ t, step s = .next t ∧ t.done = true ∧ (s.latchedReport.ovfSeen = true → t.ovf = true) ∧
      (s.latchedReport.ovfSeen = false → t.ovf = (s.ovf && !s.cycle.wdata.getLsbD 2))) ∧
  (∀ s : State, s.seq = .run → Writes s .cmd ∨ Writes s .line ∨ (∃ k, Writes s (.dbuf k)) →
    ∃ t, step s = .next t ∧ t.wbusy = true)

/-- A reset edge, at any time (70_reset_and_hazards.md R390, R391): every register and the sequencer take their reset values, a
write in that cycle has no effect, a running command is aborted with nothing committed, DONE and irq at 0 and both lines
released; and no other edge stops a command before its completion. -/
def Obligations.ResetEdgeAborts : Prop :=
  (∀ s : State, s.cycle.rstN = false → (s.cycle.rd && s.cycle.wr) = false →
    ∃ t, step s = .next t ∧ (∀ r, r ≠ .line → t.readReg r = State.reset.readReg r) ∧
      t.seq = .idle ∧ t.staged = [] ∧ t.ovfSeen = false ∧ t.tick = 0 ∧ t.prescaler = 0 ∧ t.owDrv = false ∧ t.pwDrv = false ∧
      t.seqDrvOw = false ∧ t.seqDrvPw = false ∧ t.driveLow .ow = false ∧ t.driveLow .pw = false ∧ t.irq = false) ∧
  (∀ s : State, s.seq = .run → s.wait ≠ 0 → Runs s → ∃ t, step s = .next t ∧ t.seq = .run)

/-- What the host reads after reset (70_reset_and_hazards.md R392; the reset column of 10_state.md R30), with both lines released
and no interrupt; the pins show after two further edges. -/
def Obligations.ResetValuesInWindow : Prop :=
  (State.reset.readReg .ctrl = 0#32 ∧ State.reset.readReg .status = 0#32 ∧ State.reset.readReg .cmd = 0#32 ∧
    State.reset.readReg .arg0 = 0#32 ∧ State.reset.readReg .arg1 = 0#32 ∧ State.reset.readReg .result = 0#32 ∧
    (∀ k, State.reset.readReg (.dbuf k) = 0#32) ∧ State.reset.owDrv = false ∧ State.reset.pwDrv = false ∧
    State.reset.readReg .tim0 = 0x019A01E0#32 ∧ State.reset.readReg .tim1 = 0x420A0346#32 ∧
    State.reset.readReg .tim2 = 0x0541370A#32 ∧ State.reset.readReg .tim3 = 0x28646428#32 ∧
    State.reset.readReg .tim4 = 0x00004E20#32 ∧ State.reset.driveLow .ow = false ∧ State.reset.driveLow .pw = false ∧
    State.reset.irq = false) ∧
  (∀ c1 c2 : PortCycle, ((State.reset.clockEdge c1).clockEdge c2).lineIn .ow = c1.owIn ∧
    ((State.reset.clockEdge c1).clockEdge c2).lineIn .pw = c1.pwIn)

/-- Every step keeps what a reachable state keeps of the sequencer (10_state.md R45, R46; 40_common.md R151, R152, R161). That
nothing stands in `staged` and `ovf_seen` between steps, and the phase that says whether a tick has begun, are the model's choices
(log entries 9 and 2). -/
def Obligations.StepKeepsSequencerInv : Prop :=
  ∀ s t : State, SequencerInv s → step s = .next t → SequencerInv t

/-- The reset state has it (log entries 9 and 2). -/
def Obligations.ResetHasSequencerInv : Prop := SequencerInv State.reset

/-- Every step keeps the relation of countdown, tick and timebase: a line command of duration `D` completes on tick boundary `D`
(40_common.md R156, 10_state.md R51). The countdown and its boundary edges are the model's (log entries 2 and 10). -/
def Obligations.StepKeepsCountdownInv : Prop :=
  ∀ s t : State, CountdownInv s → step s = .next t → CountdownInv t

/-- The reset state has it (log entry 2). -/
def Obligations.ResetHasCountdownInv : Prop := CountdownInv State.reset

/-- A running command completes after exactly `wait + 1` edges, whatever the host does on them short of a reset or a forbidden
cycle (40_common.md R150, R164; 10_state.md R49). `wait` is the model's field (log entry 2). -/
def Obligations.RunningCommandEndsOnTime : Prop :=
  ∀ s : State, s.seq = .run → (∀ c ∈ s.port.take (s.wait + 1), c.rstN = true ∧ (c.rd && c.wr) = false) →
    ∃ t, Host.Core.run Sys2Proof.core (s.wait + 1) s = .next t ∧ t.seq = .idle ∧ t.done = true ∧
      ∀ k, k ≤ s.wait → ∃ u, Host.Core.run Sys2Proof.core k s = .next u ∧ u.seq = .run

/-- A completing command reads nothing but the latched set, the manual drive bits and the line levels: two states that agree on
those end with the same code, the same staged writes, the same `ovf_seen` and the same duration, and each completes with exactly
these (40_common.md R162, 10_state.md R46, 20_memory.md R100). -/
def Obligations.CommandReadsOnlyItsLatch : Prop :=
  ∀ (i : Instr) (s s' : State), s.latch = s'.latch → s.owDrv = s'.owDrv → s.pwDrv = s'.pwDrv →
    (∀ x t, s.ext x t = s'.ext x t) →
    ∃ t t', exec i s = .next t ∧ exec i s' = .next t' ∧ t.err = t'.err ∧
      (s.result = s'.result → t.result = t'.result) ∧ (s.dbuf = s'.dbuf → t.dbuf = t'.dbuf) ∧
      (s.ovf = s'.ovf → t.ovf = t'.ovf) ∧
      t = s.finish (commandReport i s) ∧ t' = s'.finish (commandReport i s') ∧
      (commandReport i s).code = (commandReport i s').code ∧ (commandReport i s).staged = (commandReport i s').staged ∧
      (commandReport i s).ovfSeen = (commandReport i s').ovfSeen ∧ (commandReport i s).ticks = (commandReport i s').ticks

/-- Levels at or after the tick a command completes on do not matter to it: its run is a function of the ticks before its duration
(40_common.md R158, R162). -/
def Obligations.LevelsPastTheEndDoNotMatter : Prop :=
  ∀ (i : Instr) (s s' : State) (d : Nat), s.latch = s'.latch → s.owDrv = s'.owDrv → s.pwDrv = s'.pwDrv →
    (commandReport i s).ticks = some d → (∀ x t, t < d → s.ext x t = s'.ext x t) →
    commandReport i s' = commandReport i s

/-- A compute command never drives or samples a line; a line command drives only its own line (40_common.md R163). -/
def Obligations.ComputeCommandsIgnoreLines : Prop :=
  (∀ (i : Instr) (s : State) (waves : List Wave) (draw : Nat), lineOf i = none →
    commandReport i { s with waves := waves, draw := draw } = commandReport i s ∧ (commandReport i s).ticks = none) ∧
  (∀ (i : Instr) (L : Latch) (x : Line) (t : Nat), commandDrive i L x t = true → lineOf i = some x)

/-- The sequencer drives the running line command's waveform tick by tick: at the boundary where tick `t` starts the drive becomes
what the body says for tick `t`, and it stays between boundaries (40_common.md R156, R161; 20_memory.md R82). The phase, and which
edge is a boundary, are the model's (log entries 2 and 10). -/
def Obligations.WaveformAdvancesByTick : Prop :=
  ∀ s : State, s.seq = .run → s.wait ≠ 0 → Runs s → s.prescaler < Config.clkPerUs →
    ∃ t, step s = .next t ∧
      (s.phase = .ticking →
        t.phase = .ticking ∧ (t.prescaler = 0 ↔ s.prescaler + 1 = Config.clkPerUs) ∧
        t.tick = (if s.prescaler + 1 = Config.clkPerUs then s.tick + 1 else s.tick) ∧
        ∀ x, t.seqDrive x = if s.prescaler + 1 = Config.clkPerUs then s.latchedDrive x (s.tick + 1) else s.seqDrive x) ∧
      (s.phase = .issue 1 → t.phase = .ticking ∧ t.tick = 0 ∧ ∀ x, t.seqDrive x = s.latchedDrive x 0) ∧
      (∀ n, s.phase = .issue (n + 2) → t.phase = .issue (n + 1) ∧ ∀ x, t.seqDrive x = s.seqDrive x) ∧
      (s.phase = .untimed → t.phase = .untimed ∧ t.tick = s.tick ∧ ∀ x, t.seqDrive x = s.seqDrive x)

/-- A drive output is the manual bit or the sequencer's, and out of reset it changes only at a tick boundary or at a host write of
LINE (20_memory.md R82). Which edge is a boundary, and the invariants in the premise, are the model's (log entries 2, 9 and
10). -/
def Obligations.DriveChangesOnlyAtBoundaries : Prop :=
  (∀ s : State, s.driveLow .ow = (s.owDrv || s.seqDrvOw) ∧ s.driveLow .pw = (s.pwDrv || s.seqDrvPw)) ∧
  (∀ (s t : State) (x : Line), SequencerInv s → CountdownInv s → Runs s → step s = .next t →
    t.driveLow x ≠ s.driveLow x → t.prescaler = 0 ∨ Writes s .line)

/-- LINE as the host reads it: the drive bits at 0 and 1, the pins at 8 and 9, which read 0 while SWDB drives the line, all other
bits 0; a pin reaches LINE through two flip-flops (10_state.md R38, R47; that a driven line reads 0 at once is the model's
reading, log entry 6). -/
def Obligations.LineShowsSynchronisedPins : Prop :=
  (∀ s : State, (s.readReg .line).getLsbD 0 = s.owDrv ∧ (s.readReg .line).getLsbD 1 = s.pwDrv ∧
    (s.readReg .line).getLsbD 8 = (s.owSync.second && !(s.owDrv || s.seqDrvOw)) ∧
    (s.readReg .line).getLsbD 9 = (s.pwSync.second && !(s.pwDrv || s.seqDrvPw)) ∧
    (∀ j, 2 ≤ j → j ≠ 8 → j ≠ 9 → (s.readReg .line).getLsbD j = false)) ∧
  (∀ (s : State) (c1 c2 : PortCycle), ((s.hostEdge c1).hostEdge c2).owSync.second = (c1.owIn && !s.driveLow .ow) ∧
    ((s.hostEdge c1).hostEdge c2).pwSync.second = (c1.pwIn && !s.driveLow .pw))

/-- DBUF byte `i` is byte lane `i mod 4` of word `i / 4`, for a read and for a write (10_state.md R39, 20_memory.md R90). -/
def Obligations.DbufBytesPackLittleEndian : Prop :=
  ∀ (s : State) (i : BitVec 4) (k : BitVec 2) (v : Word),
    (s.readReg (.dbuf (i.extractLsb' 2 2))).extractLsb' (8 * (i.toNat % 4)) 8 = s.dbufByte i ∧
    ((s.writeReg false v (.dbuf k)).dbufByte i =
      if i.toNat / 4 = k.toNat then v.extractLsb' (8 * (i.toNat % 4)) 8 else s.dbufByte i)

/-- The order of the checks (60_exceptions.md R351): ILLEGAL before all, then BADCFG for manual drive, then BADCFG for timing, each
before tick 0; a command that passes them ends with neither. The manual drive of the other line is not checked. -/
def Obligations.ChecksComeInOrder : Prop :=
  ∀ (i : Instr) (s : State), ∃ t, exec i s = .next t ∧
    (¬ i.WellFormed → t.err = .illegal ∧ (commandReport i s).ticks = none) ∧
    (i.WellFormed → ∀ x, lineOf i = some x →
      (s.manualDrive x = true ∨ ¬ TimingLegal s.latch i → t.err = .badcfg ∧ (commandReport i s).ticks = none) ∧
      (s.manualDrive x = false → TimingLegal s.latch i →
        t.err ≠ .illegal ∧ t.err ≠ .badcfg ∧ ∃ d, 1 ≤ d ∧ (commandReport i s).ticks = some d)) ∧
    (i.WellFormed → lineOf i = none → t.err ≠ .illegal ∧ t.err ≠ .badcfg ∧ (commandReport i s).ticks = none)

/-- The number of each error code, and which command can report it (the columns "code", "name" and "raised by" of 60_exceptions.md
R350); 7 is no code. Where STATUS shows the number is `StatusWriteOneToClear`. -/
def Obligations.ErrorCodesByCommand : Prop :=
  (ErrCode.ok.code = 0#3 ∧ ErrCode.nodev.code = 1#3 ∧ ErrCode.corrupt.code = 2#3 ∧ ErrCode.timeout.code = 3#3 ∧
    ErrCode.invalid.code = 4#3 ∧ ErrCode.badcfg.code = 5#3 ∧ ErrCode.illegal.code = 6#3 ∧ ∀ e : ErrCode, e.code ≠ 7#3) ∧
  ∀ (i : Instr) (s t : State), exec i s = .next t →
    (t.err = .nodev → i = .pwSync ∨ ∃ sel, i = .pwFrame sel) ∧
    (t.err = .corrupt → (∃ n, i = .chkCrc8 n) ∨ ∃ n, i = .chkSum8 n) ∧
    (t.err = .timeout → i = .pwBit ∨ ∃ sel, i = .pwFrame sel) ∧
    (t.err = .invalid → (∃ sel, i = .bcdDec sel) ∨ (∃ sel, i = .bcdEnc sel) ∨ i = .dow) ∧
    (t.err = .badcfg → ∃ x, lineOf i = some x) ∧
    (t.err = .illegal → ¬ i.WellFormed)

/-- Host accesses by byte offset: refused at an offset that is no multiple of 4 and with a width other than 4; else one 32-bit read or
write of the word at that offset of the window (20_memory.md R85, R86). -/
def Obligations.HostAccessIsWordAligned : Prop :=
  (∀ clock off width v, off % 4 ≠ 0 ∨ width ≠ 4 → memRead clock off width = none ∧ memWrite clock off width v = none) ∧
  (∀ clock off v, off % 4 = 0 → off < 256 →
    ∃ c c', memRead clock off 4 = some c ∧ c.rd = true ∧ c.wr = false ∧ 4 * c.addr.toNat = off ∧
      memWrite clock off 4 v = some c' ∧ c'.rd = false ∧ c'.wr = true ∧ 4 * c'.addr.toNat = off ∧ c'.wdata = v)

/-- OW_SELECT sends 0x55 and then the address, least-significant byte first: for each byte an ARG0 write, then the word of OW_WRBYTE,
then a wait (30_encoding.md R130, R131). The list of host actions is the model's form (log entry 19). -/
def Obligations.OwSelectSendsLeastByteFirst : Prop :=
  ∀ address : BitVec 64,
    hostOwSelect address =
      (0x55 :: (List.range 8).map fun k => address.toNat / 256 ^ k % 256).flatMap fun byte =>
        [.wr .arg0 (BitVec.ofNat 32 byte), .wr .cmd 0x00000004#32, .wait]

/-- The register map (10_state.md R30): the register at each byte offset of the table, no register at 0x1C and at 0x44 to 0xFC. That a
byte-addressed access outside the 256 bytes is refused is the model's reading (log entry 16). -/
def Obligations.WindowOffsetsNameRegisters : Prop :=
  (∀ p ∈ [(0x00, Reg.ctrl), (0x04, .status), (0x08, .cmd), (0x0C, .arg0), (0x10, .arg1), (0x14, .result), (0x18, .line),
      (0x20, .dbuf 0#2), (0x24, .dbuf 1#2), (0x28, .dbuf 2#2), (0x2C, .dbuf 3#2), (0x30, .tim0), (0x34, .tim1), (0x38, .tim2),
      (0x3C, .tim3), (0x40, .tim4)],
    ∀ a : BitVec 6, 4 * a.toNat = p.1 → Reg.ofAddr a = p.2 ∧ Reg.addr p.2 = a) ∧
  (∀ a : BitVec 6, 4 * a.toNat = 0x1C ∨ 0x44 ≤ 4 * a.toNat → Reg.ofAddr a = .reserved) ∧
  (∀ clock off width v, 256 ≤ off → memRead clock off width = none ∧ memWrite clock off width v = none)

/-- A host write while BUSY = 0, as a step (20_memory.md R84, R88; 10_state.md R31 to R44): the register takes the value where it keeps
it, RESULT and reserved offsets do nothing, and nothing else of the window changes but the pins LINE shows; a write of CMD is
`AcceptLatchesOperands`. That a step is one clock edge is the model's choice (log entry 1). -/
def Obligations.HostWritesWhileIdle : Prop :=
  ∀ (s : State) (r : Reg) (v : Word), s.seq = .idle → Writes s r → s.cycle.wdata = v →
    let e := s.clockEdge s.cycle
    step s = .next (e.writeReg false v r) ∧
    (r = .ctrl → step s = .next { e with ie := v.getLsbD 0, toz := v.getLsbD 1 }) ∧
    (r = .status → step s = .next
      { e with
        done := s.done && !v.getLsbD 1
        ovf := s.ovf && !v.getLsbD 2
        wbusy := s.wbusy && !v.getLsbD 3 }) ∧
    (r = .arg0 → step s = .next { e with arg0 := v }) ∧
    (r = .arg1 → step s = .next { e with arg1 := v }) ∧
    (r = .line → step s = .next { e with owDrv := v.getLsbD 0, pwDrv := v.getLsbD 1 }) ∧
    (∀ k, r = .dbuf k → ∃ d, step s = .next { e with dbuf := d } ∧
      ∀ i : Fin 16, d[i] = if i.val / 4 = k.toNat then v.extractLsb' (8 * (i.val % 4)) 8 else s.dbuf[i]) ∧
    (r = .tim0 → step s = .next { e with tim0 := v }) ∧
    (r = .tim1 → step s = .next { e with tim1 := v }) ∧
    (r = .tim2 → step s = .next { e with tim2 := v }) ∧
    (r = .tim3 → step s = .next { e with tim3 := v }) ∧
    (r = .tim4 → step s = .next { e with tStart := v.extractLsb' 0 16 }) ∧
    (r = .result ∨ r = .reserved → step s = .next e) ∧
    (∀ r', e.readReg r' = s.readReg r' ∨ r' = .line) ∧ e.owDrv = s.owDrv ∧ e.pwDrv = s.pwDrv ∧ e.seq = s.seq ∧
      ∀ x, e.seqDrive x = s.seqDrive x
end

