-- ==== Sys2Proof/Laws/State.lean ====
section
/-! SUPPORT. One lemma per field per named update of the state, each true by rfl. -/

namespace Sys2Proof.Machine

@[simp] theorem State.reset_ie : State.reset.ie = false := rfl
@[simp] theorem State.reset_toz : State.reset.toz = false := rfl
@[simp] theorem State.reset_done : State.reset.done = false := rfl
@[simp] theorem State.reset_ovf : State.reset.ovf = false := rfl
@[simp] theorem State.reset_wbusy : State.reset.wbusy = false := rfl
@[simp] theorem State.reset_err : State.reset.err = .ok := rfl
@[simp] theorem State.reset_cmd : State.reset.cmd = 0 := rfl
@[simp] theorem State.reset_arg0 : State.reset.arg0 = 0 := rfl
@[simp] theorem State.reset_arg1 : State.reset.arg1 = 0 := rfl
@[simp] theorem State.reset_result : State.reset.result = 0 := rfl
@[simp] theorem State.reset_owDrv : State.reset.owDrv = false := rfl
@[simp] theorem State.reset_pwDrv : State.reset.pwDrv = false := rfl
@[simp] theorem State.reset_dbuf : State.reset.dbuf = Vector.replicate 16 0 := rfl
@[simp] theorem State.reset_tim0 : State.reset.tim0 = 0x019A01E0#32 := rfl
@[simp] theorem State.reset_tim1 : State.reset.tim1 = 0x420A0346#32 := rfl
@[simp] theorem State.reset_tim2 : State.reset.tim2 = 0x0541370A#32 := rfl
@[simp] theorem State.reset_tim3 : State.reset.tim3 = 0x28646428#32 := rfl
@[simp] theorem State.reset_tStart : State.reset.tStart = 0x4E20#16 := rfl
@[simp] theorem State.reset_seq : State.reset.seq = .idle := rfl
@[simp] theorem State.reset_latch : State.reset.latch = Latch.reset := rfl
@[simp] theorem State.reset_tick : State.reset.tick = 0 := rfl
@[simp] theorem State.reset_staged : State.reset.staged = [] := rfl
@[simp] theorem State.reset_ovfSeen : State.reset.ovfSeen = false := rfl
@[simp] theorem State.reset_seqDrvOw : State.reset.seqDrvOw = false := rfl
@[simp] theorem State.reset_seqDrvPw : State.reset.seqDrvPw = false := rfl
@[simp] theorem State.reset_prescaler : State.reset.prescaler = 0 := rfl
@[simp] theorem State.reset_owSync : State.reset.owSync = Synchroniser.afterReset .ow 0 := rfl
@[simp] theorem State.reset_pwSync : State.reset.pwSync = Synchroniser.afterReset .pw 0 := rfl
@[simp] theorem State.reset_rdata : State.reset.rdata = 0 := rfl
@[simp] theorem State.reset_phase : State.reset.phase = .untimed := rfl
@[simp] theorem State.reset_wait : State.reset.wait = 0 := rfl
@[simp] theorem State.reset_port : State.reset.port = [] := rfl
@[simp] theorem State.reset_waves : State.reset.waves = [] := rfl
@[simp] theorem State.reset_draw : State.reset.draw = 0 := rfl
@[simp] theorem State.reset_clock : State.reset.clock = 0 := rfl

@[simp] theorem State.writeStatus_ie (s : State) (v : Word) : (s.writeStatus v).ie = s.ie := rfl
@[simp] theorem State.writeStatus_toz (s : State) (v : Word) : (s.writeStatus v).toz = s.toz := rfl
@[simp] theorem State.writeStatus_done (s : State) (v : Word) : (s.writeStatus v).done = (s.done && !v.getLsbD 1) := rfl
@[simp] theorem State.writeStatus_ovf (s : State) (v : Word) : (s.writeStatus v).ovf = (s.ovf && !v.getLsbD 2) := rfl
@[simp] theorem State.writeStatus_wbusy (s : State) (v : Word) : (s.writeStatus v).wbusy = (s.wbusy && !v.getLsbD 3) := rfl
@[simp] theorem State.writeStatus_err (s : State) (v : Word) : (s.writeStatus v).err = s.err := rfl
@[simp] theorem State.writeStatus_cmd (s : State) (v : Word) : (s.writeStatus v).cmd = s.cmd := rfl
@[simp] theorem State.writeStatus_arg0 (s : State) (v : Word) : (s.writeStatus v).arg0 = s.arg0 := rfl
@[simp] theorem State.writeStatus_arg1 (s : State) (v : Word) : (s.writeStatus v).arg1 = s.arg1 := rfl
@[simp] theorem State.writeStatus_result (s : State) (v : Word) : (s.writeStatus v).result = s.result := rfl
@[simp] theorem State.writeStatus_owDrv (s : State) (v : Word) : (s.writeStatus v).owDrv = s.owDrv := rfl
@[simp] theorem State.writeStatus_pwDrv (s : State) (v : Word) : (s.writeStatus v).pwDrv = s.pwDrv := rfl
@[simp] theorem State.writeStatus_dbuf (s : State) (v : Word) : (s.writeStatus v).dbuf = s.dbuf := rfl
@[simp] theorem State.writeStatus_tim0 (s : State) (v : Word) : (s.writeStatus v).tim0 = s.tim0 := rfl
@[simp] theorem State.writeStatus_tim1 (s : State) (v : Word) : (s.writeStatus v).tim1 = s.tim1 := rfl
@[simp] theorem State.writeStatus_tim2 (s : State) (v : Word) : (s.writeStatus v).tim2 = s.tim2 := rfl
@[simp] theorem State.writeStatus_tim3 (s : State) (v : Word) : (s.writeStatus v).tim3 = s.tim3 := rfl
@[simp] theorem State.writeStatus_tStart (s : State) (v : Word) : (s.writeStatus v).tStart = s.tStart := rfl
@[simp] theorem State.writeStatus_seq (s : State) (v : Word) : (s.writeStatus v).seq = s.seq := rfl
@[simp] theorem State.writeStatus_latch (s : State) (v : Word) : (s.writeStatus v).latch = s.latch := rfl
@[simp] theorem State.writeStatus_tick (s : State) (v : Word) : (s.writeStatus v).tick = s.tick := rfl
@[simp] theorem State.writeStatus_staged (s : State) (v : Word) : (s.writeStatus v).staged = s.staged := rfl
@[simp] theorem State.writeStatus_ovfSeen (s : State) (v : Word) : (s.writeStatus v).ovfSeen = s.ovfSeen := rfl
@[simp] theorem State.writeStatus_seqDrvOw (s : State) (v : Word) : (s.writeStatus v).seqDrvOw = s.seqDrvOw := rfl
@[simp] theorem State.writeStatus_seqDrvPw (s : State) (v : Word) : (s.writeStatus v).seqDrvPw = s.seqDrvPw := rfl
@[simp] theorem State.writeStatus_prescaler (s : State) (v : Word) : (s.writeStatus v).prescaler = s.prescaler := rfl
@[simp] theorem State.writeStatus_owSync (s : State) (v : Word) : (s.writeStatus v).owSync = s.owSync := rfl
@[simp] theorem State.writeStatus_pwSync (s : State) (v : Word) : (s.writeStatus v).pwSync = s.pwSync := rfl
@[simp] theorem State.writeStatus_rdata (s : State) (v : Word) : (s.writeStatus v).rdata = s.rdata := rfl
@[simp] theorem State.writeStatus_phase (s : State) (v : Word) : (s.writeStatus v).phase = s.phase := rfl
@[simp] theorem State.writeStatus_wait (s : State) (v : Word) : (s.writeStatus v).wait = s.wait := rfl
@[simp] theorem State.writeStatus_port (s : State) (v : Word) : (s.writeStatus v).port = s.port := rfl
@[simp] theorem State.writeStatus_waves (s : State) (v : Word) : (s.writeStatus v).waves = s.waves := rfl
@[simp] theorem State.writeStatus_draw (s : State) (v : Word) : (s.writeStatus v).draw = s.draw := rfl
@[simp] theorem State.writeStatus_clock (s : State) (v : Word) : (s.writeStatus v).clock = s.clock := rfl

@[simp] theorem State.dropWrite_ie (s : State) : (s.dropWrite).ie = s.ie := rfl
@[simp] theorem State.dropWrite_toz (s : State) : (s.dropWrite).toz = s.toz := rfl
@[simp] theorem State.dropWrite_done (s : State) : (s.dropWrite).done = s.done := rfl
@[simp] theorem State.dropWrite_ovf (s : State) : (s.dropWrite).ovf = s.ovf := rfl
@[simp] theorem State.dropWrite_wbusy (s : State) : (s.dropWrite).wbusy = true := rfl
@[simp] theorem State.dropWrite_err (s : State) : (s.dropWrite).err = s.err := rfl
@[simp] theorem State.dropWrite_cmd (s : State) : (s.dropWrite).cmd = s.cmd := rfl
@[simp] theorem State.dropWrite_arg0 (s : State) : (s.dropWrite).arg0 = s.arg0 := rfl
@[simp] theorem State.dropWrite_arg1 (s : State) : (s.dropWrite).arg1 = s.arg1 := rfl
@[simp] theorem State.dropWrite_result (s : State) : (s.dropWrite).result = s.result := rfl
@[simp] theorem State.dropWrite_owDrv (s : State) : (s.dropWrite).owDrv = s.owDrv := rfl
@[simp] theorem State.dropWrite_pwDrv (s : State) : (s.dropWrite).pwDrv = s.pwDrv := rfl
@[simp] theorem State.dropWrite_dbuf (s : State) : (s.dropWrite).dbuf = s.dbuf := rfl
@[simp] theorem State.dropWrite_tim0 (s : State) : (s.dropWrite).tim0 = s.tim0 := rfl
@[simp] theorem State.dropWrite_tim1 (s : State) : (s.dropWrite).tim1 = s.tim1 := rfl
@[simp] theorem State.dropWrite_tim2 (s : State) : (s.dropWrite).tim2 = s.tim2 := rfl
@[simp] theorem State.dropWrite_tim3 (s : State) : (s.dropWrite).tim3 = s.tim3 := rfl
@[simp] theorem State.dropWrite_tStart (s : State) : (s.dropWrite).tStart = s.tStart := rfl
@[simp] theorem State.dropWrite_seq (s : State) : (s.dropWrite).seq = s.seq := rfl
@[simp] theorem State.dropWrite_latch (s : State) : (s.dropWrite).latch = s.latch := rfl
@[simp] theorem State.dropWrite_tick (s : State) : (s.dropWrite).tick = s.tick := rfl
@[simp] theorem State.dropWrite_staged (s : State) : (s.dropWrite).staged = s.staged := rfl
@[simp] theorem State.dropWrite_ovfSeen (s : State) : (s.dropWrite).ovfSeen = s.ovfSeen := rfl
@[simp] theorem State.dropWrite_seqDrvOw (s : State) : (s.dropWrite).seqDrvOw = s.seqDrvOw := rfl
@[simp] theorem State.dropWrite_seqDrvPw (s : State) : (s.dropWrite).seqDrvPw = s.seqDrvPw := rfl
@[simp] theorem State.dropWrite_prescaler (s : State) : (s.dropWrite).prescaler = s.prescaler := rfl
@[simp] theorem State.dropWrite_owSync (s : State) : (s.dropWrite).owSync = s.owSync := rfl
@[simp] theorem State.dropWrite_pwSync (s : State) : (s.dropWrite).pwSync = s.pwSync := rfl
@[simp] theorem State.dropWrite_rdata (s : State) : (s.dropWrite).rdata = s.rdata := rfl
@[simp] theorem State.dropWrite_phase (s : State) : (s.dropWrite).phase = s.phase := rfl
@[simp] theorem State.dropWrite_wait (s : State) : (s.dropWrite).wait = s.wait := rfl
@[simp] theorem State.dropWrite_port (s : State) : (s.dropWrite).port = s.port := rfl
@[simp] theorem State.dropWrite_waves (s : State) : (s.dropWrite).waves = s.waves := rfl
@[simp] theorem State.dropWrite_draw (s : State) : (s.dropWrite).draw = s.draw := rfl
@[simp] theorem State.dropWrite_clock (s : State) : (s.dropWrite).clock = s.clock := rfl

@[simp] theorem State.acceptFlags_ie (s : State) : (s.acceptFlags).ie = s.ie := rfl
@[simp] theorem State.acceptFlags_toz (s : State) : (s.acceptFlags).toz = s.toz := rfl
@[simp] theorem State.acceptFlags_done (s : State) : (s.acceptFlags).done = false := rfl
@[simp] theorem State.acceptFlags_ovf (s : State) : (s.acceptFlags).ovf = s.ovf := rfl
@[simp] theorem State.acceptFlags_wbusy (s : State) : (s.acceptFlags).wbusy = s.wbusy := rfl
@[simp] theorem State.acceptFlags_err (s : State) : (s.acceptFlags).err = .ok := rfl
@[simp] theorem State.acceptFlags_cmd (s : State) : (s.acceptFlags).cmd = s.cmd := rfl
@[simp] theorem State.acceptFlags_arg0 (s : State) : (s.acceptFlags).arg0 = s.arg0 := rfl
@[simp] theorem State.acceptFlags_arg1 (s : State) : (s.acceptFlags).arg1 = s.arg1 := rfl
@[simp] theorem State.acceptFlags_result (s : State) : (s.acceptFlags).result = s.result := rfl
@[simp] theorem State.acceptFlags_owDrv (s : State) : (s.acceptFlags).owDrv = s.owDrv := rfl
@[simp] theorem State.acceptFlags_pwDrv (s : State) : (s.acceptFlags).pwDrv = s.pwDrv := rfl
@[simp] theorem State.acceptFlags_dbuf (s : State) : (s.acceptFlags).dbuf = s.dbuf := rfl
@[simp] theorem State.acceptFlags_tim0 (s : State) : (s.acceptFlags).tim0 = s.tim0 := rfl
@[simp] theorem State.acceptFlags_tim1 (s : State) : (s.acceptFlags).tim1 = s.tim1 := rfl
@[simp] theorem State.acceptFlags_tim2 (s : State) : (s.acceptFlags).tim2 = s.tim2 := rfl
@[simp] theorem State.acceptFlags_tim3 (s : State) : (s.acceptFlags).tim3 = s.tim3 := rfl
@[simp] theorem State.acceptFlags_tStart (s : State) : (s.acceptFlags).tStart = s.tStart := rfl
@[simp] theorem State.acceptFlags_seq (s : State) : (s.acceptFlags).seq = .run := rfl
@[simp] theorem State.acceptFlags_latch (s : State) : (s.acceptFlags).latch = s.latch := rfl
@[simp] theorem State.acceptFlags_tick (s : State) : (s.acceptFlags).tick = s.tick := rfl
@[simp] theorem State.acceptFlags_staged (s : State) : (s.acceptFlags).staged = s.staged := rfl
@[simp] theorem State.acceptFlags_ovfSeen (s : State) : (s.acceptFlags).ovfSeen = s.ovfSeen := rfl
@[simp] theorem State.acceptFlags_seqDrvOw (s : State) : (s.acceptFlags).seqDrvOw = s.seqDrvOw := rfl
@[simp] theorem State.acceptFlags_seqDrvPw (s : State) : (s.acceptFlags).seqDrvPw = s.seqDrvPw := rfl
@[simp] theorem State.acceptFlags_prescaler (s : State) : (s.acceptFlags).prescaler = s.prescaler := rfl
@[simp] theorem State.acceptFlags_owSync (s : State) : (s.acceptFlags).owSync = s.owSync := rfl
@[simp] theorem State.acceptFlags_pwSync (s : State) : (s.acceptFlags).pwSync = s.pwSync := rfl
@[simp] theorem State.acceptFlags_rdata (s : State) : (s.acceptFlags).rdata = s.rdata := rfl
@[simp] theorem State.acceptFlags_phase (s : State) : (s.acceptFlags).phase = s.phase := rfl
@[simp] theorem State.acceptFlags_wait (s : State) : (s.acceptFlags).wait = s.wait := rfl
@[simp] theorem State.acceptFlags_port (s : State) : (s.acceptFlags).port = s.port := rfl
@[simp] theorem State.acceptFlags_waves (s : State) : (s.acceptFlags).waves = s.waves := rfl
@[simp] theorem State.acceptFlags_draw (s : State) : (s.acceptFlags).draw = s.draw := rfl
@[simp] theorem State.acceptFlags_clock (s : State) : (s.acceptFlags).clock = s.clock := rfl

@[simp] theorem State.completionFlags_ie (s : State) (code : ErrCode) : (s.completionFlags code).ie = s.ie := rfl
@[simp] theorem State.completionFlags_toz (s : State) (code : ErrCode) : (s.completionFlags code).toz = s.toz := rfl
@[simp] theorem State.completionFlags_done (s : State) (code : ErrCode) : (s.completionFlags code).done = true := rfl
@[simp] theorem State.completionFlags_ovf (s : State) (code : ErrCode) : (s.completionFlags code).ovf = (s.ovf || s.ovfSeen) := rfl
@[simp] theorem State.completionFlags_wbusy (s : State) (code : ErrCode) : (s.completionFlags code).wbusy = s.wbusy := rfl
@[simp] theorem State.completionFlags_err (s : State) (code : ErrCode) : (s.completionFlags code).err = code := rfl
@[simp] theorem State.completionFlags_cmd (s : State) (code : ErrCode) : (s.completionFlags code).cmd = s.cmd := rfl
@[simp] theorem State.completionFlags_arg0 (s : State) (code : ErrCode) : (s.completionFlags code).arg0 = s.arg0 := rfl
@[simp] theorem State.completionFlags_arg1 (s : State) (code : ErrCode) : (s.completionFlags code).arg1 = s.arg1 := rfl
@[simp] theorem State.completionFlags_result (s : State) (code : ErrCode) : (s.completionFlags code).result = s.result := rfl
@[simp] theorem State.completionFlags_owDrv (s : State) (code : ErrCode) : (s.completionFlags code).owDrv = s.owDrv := rfl
@[simp] theorem State.completionFlags_pwDrv (s : State) (code : ErrCode) : (s.completionFlags code).pwDrv = s.pwDrv := rfl
@[simp] theorem State.completionFlags_dbuf (s : State) (code : ErrCode) : (s.completionFlags code).dbuf = s.dbuf := rfl
@[simp] theorem State.completionFlags_tim0 (s : State) (code : ErrCode) : (s.completionFlags code).tim0 = s.tim0 := rfl
@[simp] theorem State.completionFlags_tim1 (s : State) (code : ErrCode) : (s.completionFlags code).tim1 = s.tim1 := rfl
@[simp] theorem State.completionFlags_tim2 (s : State) (code : ErrCode) : (s.completionFlags code).tim2 = s.tim2 := rfl
@[simp] theorem State.completionFlags_tim3 (s : State) (code : ErrCode) : (s.completionFlags code).tim3 = s.tim3 := rfl
@[simp] theorem State.completionFlags_tStart (s : State) (code : ErrCode) : (s.completionFlags code).tStart = s.tStart := rfl
@[simp] theorem State.completionFlags_seq (s : State) (code : ErrCode) : (s.completionFlags code).seq = .idle := rfl
@[simp] theorem State.completionFlags_latch (s : State) (code : ErrCode) : (s.completionFlags code).latch = s.latch := rfl
@[simp] theorem State.completionFlags_tick (s : State) (code : ErrCode) : (s.completionFlags code).tick = s.tick := rfl
@[simp] theorem State.completionFlags_staged (s : State) (code : ErrCode) : (s.completionFlags code).staged = s.staged := rfl
@[simp] theorem State.completionFlags_ovfSeen (s : State) (code : ErrCode) : (s.completionFlags code).ovfSeen = s.ovfSeen := rfl
@[simp] theorem State.completionFlags_seqDrvOw (s : State) (code : ErrCode) : (s.completionFlags code).seqDrvOw = s.seqDrvOw := rfl
@[simp] theorem State.completionFlags_seqDrvPw (s : State) (code : ErrCode) : (s.completionFlags code).seqDrvPw = s.seqDrvPw := rfl
@[simp] theorem State.completionFlags_prescaler (s : State) (code : ErrCode) : (s.completionFlags code).prescaler = s.prescaler := rfl
@[simp] theorem State.completionFlags_owSync (s : State) (code : ErrCode) : (s.completionFlags code).owSync = s.owSync := rfl
@[simp] theorem State.completionFlags_pwSync (s : State) (code : ErrCode) : (s.completionFlags code).pwSync = s.pwSync := rfl
@[simp] theorem State.completionFlags_rdata (s : State) (code : ErrCode) : (s.completionFlags code).rdata = s.rdata := rfl
@[simp] theorem State.completionFlags_phase (s : State) (code : ErrCode) : (s.completionFlags code).phase = s.phase := rfl
@[simp] theorem State.completionFlags_wait (s : State) (code : ErrCode) : (s.completionFlags code).wait = s.wait := rfl
@[simp] theorem State.completionFlags_port (s : State) (code : ErrCode) : (s.completionFlags code).port = s.port := rfl
@[simp] theorem State.completionFlags_waves (s : State) (code : ErrCode) : (s.completionFlags code).waves = s.waves := rfl
@[simp] theorem State.completionFlags_draw (s : State) (code : ErrCode) : (s.completionFlags code).draw = s.draw := rfl
@[simp] theorem State.completionFlags_clock (s : State) (code : ErrCode) : (s.completionFlags code).clock = s.clock := rfl

@[simp] theorem State.setDbuf_ie (s : State) (i : BitVec 4) (b : Byte) : (s.setDbuf i b).ie = s.ie := rfl
@[simp] theorem State.setDbuf_toz (s : State) (i : BitVec 4) (b : Byte) : (s.setDbuf i b).toz = s.toz := rfl
@[simp] theorem State.setDbuf_done (s : State) (i : BitVec 4) (b : Byte) : (s.setDbuf i b).done = s.done := rfl
@[simp] theorem State.setDbuf_ovf (s : State) (i : BitVec 4) (b : Byte) : (s.setDbuf i b).ovf = s.ovf := rfl
@[simp] theorem State.setDbuf_wbusy (s : State) (i : BitVec 4) (b : Byte) : (s.setDbuf i b).wbusy = s.wbusy := rfl
@[simp] theorem State.setDbuf_err (s : State) (i : BitVec 4) (b : Byte) : (s.setDbuf i b).err = s.err := rfl
@[simp] theorem State.setDbuf_cmd (s : State) (i : BitVec 4) (b : Byte) : (s.setDbuf i b).cmd = s.cmd := rfl
@[simp] theorem State.setDbuf_arg0 (s : State) (i : BitVec 4) (b : Byte) : (s.setDbuf i b).arg0 = s.arg0 := rfl
@[simp] theorem State.setDbuf_arg1 (s : State) (i : BitVec 4) (b : Byte) : (s.setDbuf i b).arg1 = s.arg1 := rfl
@[simp] theorem State.setDbuf_result (s : State) (i : BitVec 4) (b : Byte) : (s.setDbuf i b).result = s.result := rfl
@[simp] theorem State.setDbuf_owDrv (s : State) (i : BitVec 4) (b : Byte) : (s.setDbuf i b).owDrv = s.owDrv := rfl
@[simp] theorem State.setDbuf_pwDrv (s : State) (i : BitVec 4) (b : Byte) : (s.setDbuf i b).pwDrv = s.pwDrv := rfl
@[simp] theorem State.setDbuf_dbuf (s : State) (i : BitVec 4) (b : Byte) : (s.setDbuf i b).dbuf = s.dbuf.set i.toFin b i.toFin.isLt := rfl
@[simp] theorem State.setDbuf_tim0 (s : State) (i : BitVec 4) (b : Byte) : (s.setDbuf i b).tim0 = s.tim0 := rfl
@[simp] theorem State.setDbuf_tim1 (s : State) (i : BitVec 4) (b : Byte) : (s.setDbuf i b).tim1 = s.tim1 := rfl
@[simp] theorem State.setDbuf_tim2 (s : State) (i : BitVec 4) (b : Byte) : (s.setDbuf i b).tim2 = s.tim2 := rfl
@[simp] theorem State.setDbuf_tim3 (s : State) (i : BitVec 4) (b : Byte) : (s.setDbuf i b).tim3 = s.tim3 := rfl
@[simp] theorem State.setDbuf_tStart (s : State) (i : BitVec 4) (b : Byte) : (s.setDbuf i b).tStart = s.tStart := rfl
@[simp] theorem State.setDbuf_seq (s : State) (i : BitVec 4) (b : Byte) : (s.setDbuf i b).seq = s.seq := rfl
@[simp] theorem State.setDbuf_latch (s : State) (i : BitVec 4) (b : Byte) : (s.setDbuf i b).latch = s.latch := rfl
@[simp] theorem State.setDbuf_tick (s : State) (i : BitVec 4) (b : Byte) : (s.setDbuf i b).tick = s.tick := rfl
@[simp] theorem State.setDbuf_staged (s : State) (i : BitVec 4) (b : Byte) : (s.setDbuf i b).staged = s.staged := rfl
@[simp] theorem State.setDbuf_ovfSeen (s : State) (i : BitVec 4) (b : Byte) : (s.setDbuf i b).ovfSeen = s.ovfSeen := rfl
@[simp] theorem State.setDbuf_seqDrvOw (s : State) (i : BitVec 4) (b : Byte) : (s.setDbuf i b).seqDrvOw = s.seqDrvOw := rfl
@[simp] theorem State.setDbuf_seqDrvPw (s : State) (i : BitVec 4) (b : Byte) : (s.setDbuf i b).seqDrvPw = s.seqDrvPw := rfl
@[simp] theorem State.setDbuf_prescaler (s : State) (i : BitVec 4) (b : Byte) : (s.setDbuf i b).prescaler = s.prescaler := rfl
@[simp] theorem State.setDbuf_owSync (s : State) (i : BitVec 4) (b : Byte) : (s.setDbuf i b).owSync = s.owSync := rfl
@[simp] theorem State.setDbuf_pwSync (s : State) (i : BitVec 4) (b : Byte) : (s.setDbuf i b).pwSync = s.pwSync := rfl
@[simp] theorem State.setDbuf_rdata (s : State) (i : BitVec 4) (b : Byte) : (s.setDbuf i b).rdata = s.rdata := rfl
@[simp] theorem State.setDbuf_phase (s : State) (i : BitVec 4) (b : Byte) : (s.setDbuf i b).phase = s.phase := rfl
@[simp] theorem State.setDbuf_wait (s : State) (i : BitVec 4) (b : Byte) : (s.setDbuf i b).wait = s.wait := rfl
@[simp] theorem State.setDbuf_port (s : State) (i : BitVec 4) (b : Byte) : (s.setDbuf i b).port = s.port := rfl
@[simp] theorem State.setDbuf_waves (s : State) (i : BitVec 4) (b : Byte) : (s.setDbuf i b).waves = s.waves := rfl
@[simp] theorem State.setDbuf_draw (s : State) (i : BitVec 4) (b : Byte) : (s.setDbuf i b).draw = s.draw := rfl
@[simp] theorem State.setDbuf_clock (s : State) (i : BitVec 4) (b : Byte) : (s.setDbuf i b).clock = s.clock := rfl

@[simp] theorem State.takeCommand_ie (s : State) (w : Word) : (s.takeCommand w).ie = s.ie := rfl
@[simp] theorem State.takeCommand_toz (s : State) (w : Word) : (s.takeCommand w).toz = s.toz := rfl
@[simp] theorem State.takeCommand_done (s : State) (w : Word) : (s.takeCommand w).done = false := rfl
@[simp] theorem State.takeCommand_ovf (s : State) (w : Word) : (s.takeCommand w).ovf = s.ovf := rfl
@[simp] theorem State.takeCommand_wbusy (s : State) (w : Word) : (s.takeCommand w).wbusy = s.wbusy := rfl
@[simp] theorem State.takeCommand_err (s : State) (w : Word) : (s.takeCommand w).err = .ok := rfl
@[simp] theorem State.takeCommand_cmd (s : State) (w : Word) : (s.takeCommand w).cmd = w := rfl
@[simp] theorem State.takeCommand_arg0 (s : State) (w : Word) : (s.takeCommand w).arg0 = s.arg0 := rfl
@[simp] theorem State.takeCommand_arg1 (s : State) (w : Word) : (s.takeCommand w).arg1 = s.arg1 := rfl
@[simp] theorem State.takeCommand_result (s : State) (w : Word) : (s.takeCommand w).result = s.result := rfl
@[simp] theorem State.takeCommand_owDrv (s : State) (w : Word) : (s.takeCommand w).owDrv = s.owDrv := rfl
@[simp] theorem State.takeCommand_pwDrv (s : State) (w : Word) : (s.takeCommand w).pwDrv = s.pwDrv := rfl
@[simp] theorem State.takeCommand_dbuf (s : State) (w : Word) : (s.takeCommand w).dbuf = s.dbuf := rfl
@[simp] theorem State.takeCommand_tim0 (s : State) (w : Word) : (s.takeCommand w).tim0 = s.tim0 := rfl
@[simp] theorem State.takeCommand_tim1 (s : State) (w : Word) : (s.takeCommand w).tim1 = s.tim1 := rfl
@[simp] theorem State.takeCommand_tim2 (s : State) (w : Word) : (s.takeCommand w).tim2 = s.tim2 := rfl
@[simp] theorem State.takeCommand_tim3 (s : State) (w : Word) : (s.takeCommand w).tim3 = s.tim3 := rfl
@[simp] theorem State.takeCommand_tStart (s : State) (w : Word) : (s.takeCommand w).tStart = s.tStart := rfl
@[simp] theorem State.takeCommand_seq (s : State) (w : Word) : (s.takeCommand w).seq = .run := rfl
@[simp] theorem State.takeCommand_latch (s : State) (w : Word) : (s.takeCommand w).latch = s.latchOf w := rfl
@[simp] theorem State.takeCommand_tick (s : State) (w : Word) : (s.takeCommand w).tick = 0 := rfl
@[simp] theorem State.takeCommand_staged (s : State) (w : Word) : (s.takeCommand w).staged = [] := rfl
@[simp] theorem State.takeCommand_ovfSeen (s : State) (w : Word) : (s.takeCommand w).ovfSeen = false := rfl
@[simp] theorem State.takeCommand_seqDrvOw (s : State) (w : Word) : (s.takeCommand w).seqDrvOw = s.seqDrvOw := rfl
@[simp] theorem State.takeCommand_seqDrvPw (s : State) (w : Word) : (s.takeCommand w).seqDrvPw = s.seqDrvPw := rfl
@[simp] theorem State.takeCommand_prescaler (s : State) (w : Word) : (s.takeCommand w).prescaler = s.prescaler := rfl
@[simp] theorem State.takeCommand_owSync (s : State) (w : Word) : (s.takeCommand w).owSync = s.owSync := rfl
@[simp] theorem State.takeCommand_pwSync (s : State) (w : Word) : (s.takeCommand w).pwSync = s.pwSync := rfl
@[simp] theorem State.takeCommand_rdata (s : State) (w : Word) : (s.takeCommand w).rdata = s.rdata := rfl
@[simp] theorem State.takeCommand_phase (s : State) (w : Word) : (s.takeCommand w).phase = s.phase := rfl
@[simp] theorem State.takeCommand_wait (s : State) (w : Word) : (s.takeCommand w).wait = s.wait := rfl
@[simp] theorem State.takeCommand_port (s : State) (w : Word) : (s.takeCommand w).port = s.port := rfl
@[simp] theorem State.takeCommand_waves (s : State) (w : Word) : (s.takeCommand w).waves = s.waves := rfl
@[simp] theorem State.takeCommand_draw (s : State) (w : Word) : (s.takeCommand w).draw = s.draw := rfl
@[simp] theorem State.takeCommand_clock (s : State) (w : Word) : (s.takeCommand w).clock = s.clock := rfl

@[simp] theorem State.startTick_ie (s : State) (t : Nat) : (s.startTick t).ie = s.ie := rfl
@[simp] theorem State.startTick_toz (s : State) (t : Nat) : (s.startTick t).toz = s.toz := rfl
@[simp] theorem State.startTick_done (s : State) (t : Nat) : (s.startTick t).done = s.done := rfl
@[simp] theorem State.startTick_ovf (s : State) (t : Nat) : (s.startTick t).ovf = s.ovf := rfl
@[simp] theorem State.startTick_wbusy (s : State) (t : Nat) : (s.startTick t).wbusy = s.wbusy := rfl
@[simp] theorem State.startTick_err (s : State) (t : Nat) : (s.startTick t).err = s.err := rfl
@[simp] theorem State.startTick_cmd (s : State) (t : Nat) : (s.startTick t).cmd = s.cmd := rfl
@[simp] theorem State.startTick_arg0 (s : State) (t : Nat) : (s.startTick t).arg0 = s.arg0 := rfl
@[simp] theorem State.startTick_arg1 (s : State) (t : Nat) : (s.startTick t).arg1 = s.arg1 := rfl
@[simp] theorem State.startTick_result (s : State) (t : Nat) : (s.startTick t).result = s.result := rfl
@[simp] theorem State.startTick_owDrv (s : State) (t : Nat) : (s.startTick t).owDrv = s.owDrv := rfl
@[simp] theorem State.startTick_pwDrv (s : State) (t : Nat) : (s.startTick t).pwDrv = s.pwDrv := rfl
@[simp] theorem State.startTick_dbuf (s : State) (t : Nat) : (s.startTick t).dbuf = s.dbuf := rfl
@[simp] theorem State.startTick_tim0 (s : State) (t : Nat) : (s.startTick t).tim0 = s.tim0 := rfl
@[simp] theorem State.startTick_tim1 (s : State) (t : Nat) : (s.startTick t).tim1 = s.tim1 := rfl
@[simp] theorem State.startTick_tim2 (s : State) (t : Nat) : (s.startTick t).tim2 = s.tim2 := rfl
@[simp] theorem State.startTick_tim3 (s : State) (t : Nat) : (s.startTick t).tim3 = s.tim3 := rfl
@[simp] theorem State.startTick_tStart (s : State) (t : Nat) : (s.startTick t).tStart = s.tStart := rfl
@[simp] theorem State.startTick_seq (s : State) (t : Nat) : (s.startTick t).seq = s.seq := rfl
@[simp] theorem State.startTick_latch (s : State) (t : Nat) : (s.startTick t).latch = s.latch := rfl
@[simp] theorem State.startTick_tick (s : State) (t : Nat) : (s.startTick t).tick = t := rfl
@[simp] theorem State.startTick_staged (s : State) (t : Nat) : (s.startTick t).staged = s.staged := rfl
@[simp] theorem State.startTick_ovfSeen (s : State) (t : Nat) : (s.startTick t).ovfSeen = s.ovfSeen := rfl
@[simp] theorem State.startTick_seqDrvOw (s : State) (t : Nat) : (s.startTick t).seqDrvOw = s.latchedDrive .ow t := rfl
@[simp] theorem State.startTick_seqDrvPw (s : State) (t : Nat) : (s.startTick t).seqDrvPw = s.latchedDrive .pw t := rfl
@[simp] theorem State.startTick_prescaler (s : State) (t : Nat) : (s.startTick t).prescaler = s.prescaler := rfl
@[simp] theorem State.startTick_owSync (s : State) (t : Nat) : (s.startTick t).owSync = s.owSync := rfl
@[simp] theorem State.startTick_pwSync (s : State) (t : Nat) : (s.startTick t).pwSync = s.pwSync := rfl
@[simp] theorem State.startTick_rdata (s : State) (t : Nat) : (s.startTick t).rdata = s.rdata := rfl
@[simp] theorem State.startTick_phase (s : State) (t : Nat) : (s.startTick t).phase = .ticking := rfl
@[simp] theorem State.startTick_wait (s : State) (t : Nat) : (s.startTick t).wait = s.wait := rfl
@[simp] theorem State.startTick_port (s : State) (t : Nat) : (s.startTick t).port = s.port := rfl
@[simp] theorem State.startTick_waves (s : State) (t : Nat) : (s.startTick t).waves = s.waves := rfl
@[simp] theorem State.startTick_draw (s : State) (t : Nat) : (s.startTick t).draw = s.draw := rfl
@[simp] theorem State.startTick_clock (s : State) (t : Nat) : (s.startTick t).clock = s.clock := rfl

@[simp] theorem State.nextInput_ie (s : State) : (s.nextInput).ie = s.ie := rfl
@[simp] theorem State.nextInput_toz (s : State) : (s.nextInput).toz = s.toz := rfl
@[simp] theorem State.nextInput_done (s : State) : (s.nextInput).done = s.done := rfl
@[simp] theorem State.nextInput_ovf (s : State) : (s.nextInput).ovf = s.ovf := rfl
@[simp] theorem State.nextInput_wbusy (s : State) : (s.nextInput).wbusy = s.wbusy := rfl
@[simp] theorem State.nextInput_err (s : State) : (s.nextInput).err = s.err := rfl
@[simp] theorem State.nextInput_cmd (s : State) : (s.nextInput).cmd = s.cmd := rfl
@[simp] theorem State.nextInput_arg0 (s : State) : (s.nextInput).arg0 = s.arg0 := rfl
@[simp] theorem State.nextInput_arg1 (s : State) : (s.nextInput).arg1 = s.arg1 := rfl
@[simp] theorem State.nextInput_result (s : State) : (s.nextInput).result = s.result := rfl
@[simp] theorem State.nextInput_owDrv (s : State) : (s.nextInput).owDrv = s.owDrv := rfl
@[simp] theorem State.nextInput_pwDrv (s : State) : (s.nextInput).pwDrv = s.pwDrv := rfl
@[simp] theorem State.nextInput_dbuf (s : State) : (s.nextInput).dbuf = s.dbuf := rfl
@[simp] theorem State.nextInput_tim0 (s : State) : (s.nextInput).tim0 = s.tim0 := rfl
@[simp] theorem State.nextInput_tim1 (s : State) : (s.nextInput).tim1 = s.tim1 := rfl
@[simp] theorem State.nextInput_tim2 (s : State) : (s.nextInput).tim2 = s.tim2 := rfl
@[simp] theorem State.nextInput_tim3 (s : State) : (s.nextInput).tim3 = s.tim3 := rfl
@[simp] theorem State.nextInput_tStart (s : State) : (s.nextInput).tStart = s.tStart := rfl
@[simp] theorem State.nextInput_seq (s : State) : (s.nextInput).seq = s.seq := rfl
@[simp] theorem State.nextInput_latch (s : State) : (s.nextInput).latch = s.latch := rfl
@[simp] theorem State.nextInput_tick (s : State) : (s.nextInput).tick = s.tick := rfl
@[simp] theorem State.nextInput_staged (s : State) : (s.nextInput).staged = s.staged := rfl
@[simp] theorem State.nextInput_ovfSeen (s : State) : (s.nextInput).ovfSeen = s.ovfSeen := rfl
@[simp] theorem State.nextInput_seqDrvOw (s : State) : (s.nextInput).seqDrvOw = s.seqDrvOw := rfl
@[simp] theorem State.nextInput_seqDrvPw (s : State) : (s.nextInput).seqDrvPw = s.seqDrvPw := rfl
@[simp] theorem State.nextInput_prescaler (s : State) : (s.nextInput).prescaler = s.prescaler := rfl
@[simp] theorem State.nextInput_owSync (s : State) : (s.nextInput).owSync = s.owSync := rfl
@[simp] theorem State.nextInput_pwSync (s : State) : (s.nextInput).pwSync = s.pwSync := rfl
@[simp] theorem State.nextInput_rdata (s : State) : (s.nextInput).rdata = s.rdata := rfl
@[simp] theorem State.nextInput_phase (s : State) : (s.nextInput).phase = s.phase := rfl
@[simp] theorem State.nextInput_wait (s : State) : (s.nextInput).wait = s.wait := rfl
@[simp] theorem State.nextInput_port (s : State) : (s.nextInput).port = s.port.tail := rfl
@[simp] theorem State.nextInput_waves (s : State) : (s.nextInput).waves = s.waves := rfl
@[simp] theorem State.nextInput_draw (s : State) : (s.nextInput).draw = s.draw := rfl
@[simp] theorem State.nextInput_clock (s : State) : (s.nextInput).clock = s.clock + 1 := rfl

@[simp] theorem State.clockEdge_ie (s : State) (c : PortCycle) : (s.clockEdge c).ie = s.ie := rfl
@[simp] theorem State.clockEdge_toz (s : State) (c : PortCycle) : (s.clockEdge c).toz = s.toz := rfl
@[simp] theorem State.clockEdge_done (s : State) (c : PortCycle) : (s.clockEdge c).done = s.done := rfl
@[simp] theorem State.clockEdge_ovf (s : State) (c : PortCycle) : (s.clockEdge c).ovf = s.ovf := rfl
@[simp] theorem State.clockEdge_wbusy (s : State) (c : PortCycle) : (s.clockEdge c).wbusy = s.wbusy := rfl
@[simp] theorem State.clockEdge_err (s : State) (c : PortCycle) : (s.clockEdge c).err = s.err := rfl
@[simp] theorem State.clockEdge_cmd (s : State) (c : PortCycle) : (s.clockEdge c).cmd = s.cmd := rfl
@[simp] theorem State.clockEdge_arg0 (s : State) (c : PortCycle) : (s.clockEdge c).arg0 = s.arg0 := rfl
@[simp] theorem State.clockEdge_arg1 (s : State) (c : PortCycle) : (s.clockEdge c).arg1 = s.arg1 := rfl
@[simp] theorem State.clockEdge_result (s : State) (c : PortCycle) : (s.clockEdge c).result = s.result := rfl
@[simp] theorem State.clockEdge_owDrv (s : State) (c : PortCycle) : (s.clockEdge c).owDrv = s.owDrv := rfl
@[simp] theorem State.clockEdge_pwDrv (s : State) (c : PortCycle) : (s.clockEdge c).pwDrv = s.pwDrv := rfl
@[simp] theorem State.clockEdge_dbuf (s : State) (c : PortCycle) : (s.clockEdge c).dbuf = s.dbuf := rfl
@[simp] theorem State.clockEdge_tim0 (s : State) (c : PortCycle) : (s.clockEdge c).tim0 = s.tim0 := rfl
@[simp] theorem State.clockEdge_tim1 (s : State) (c : PortCycle) : (s.clockEdge c).tim1 = s.tim1 := rfl
@[simp] theorem State.clockEdge_tim2 (s : State) (c : PortCycle) : (s.clockEdge c).tim2 = s.tim2 := rfl
@[simp] theorem State.clockEdge_tim3 (s : State) (c : PortCycle) : (s.clockEdge c).tim3 = s.tim3 := rfl
@[simp] theorem State.clockEdge_tStart (s : State) (c : PortCycle) : (s.clockEdge c).tStart = s.tStart := rfl
@[simp] theorem State.clockEdge_seq (s : State) (c : PortCycle) : (s.clockEdge c).seq = s.seq := rfl
@[simp] theorem State.clockEdge_latch (s : State) (c : PortCycle) : (s.clockEdge c).latch = s.latch := rfl
@[simp] theorem State.clockEdge_tick (s : State) (c : PortCycle) : (s.clockEdge c).tick = s.tick := rfl
@[simp] theorem State.clockEdge_staged (s : State) (c : PortCycle) : (s.clockEdge c).staged = s.staged := rfl
@[simp] theorem State.clockEdge_ovfSeen (s : State) (c : PortCycle) : (s.clockEdge c).ovfSeen = s.ovfSeen := rfl
@[simp] theorem State.clockEdge_seqDrvOw (s : State) (c : PortCycle) : (s.clockEdge c).seqDrvOw = s.seqDrvOw := rfl
@[simp] theorem State.clockEdge_seqDrvPw (s : State) (c : PortCycle) : (s.clockEdge c).seqDrvPw = s.seqDrvPw := rfl
@[simp] theorem State.clockEdge_prescaler (s : State) (c : PortCycle) : (s.clockEdge c).prescaler = nextPrescaler s.prescaler := rfl
@[simp] theorem State.clockEdge_owSync (s : State) (c : PortCycle) : (s.clockEdge c).owSync = s.owSync.shift (c.owIn && !s.driveLow .ow) := rfl
@[simp] theorem State.clockEdge_pwSync (s : State) (c : PortCycle) : (s.clockEdge c).pwSync = s.pwSync.shift (c.pwIn && !s.driveLow .pw) := rfl
@[simp] theorem State.clockEdge_rdata (s : State) (c : PortCycle) : (s.clockEdge c).rdata = if c.rd then s.readReg (Reg.ofAddr c.addr) else s.rdata := rfl
@[simp] theorem State.clockEdge_phase (s : State) (c : PortCycle) : (s.clockEdge c).phase = s.phase := rfl
@[simp] theorem State.clockEdge_wait (s : State) (c : PortCycle) : (s.clockEdge c).wait = s.wait := rfl
@[simp] theorem State.clockEdge_port (s : State) (c : PortCycle) : (s.clockEdge c).port = s.port.tail := rfl
@[simp] theorem State.clockEdge_waves (s : State) (c : PortCycle) : (s.clockEdge c).waves = s.waves := rfl
@[simp] theorem State.clockEdge_draw (s : State) (c : PortCycle) : (s.clockEdge c).draw = s.draw := rfl
@[simp] theorem State.clockEdge_clock (s : State) (c : PortCycle) : (s.clockEdge c).clock = s.clock + 1 := rfl

@[simp] theorem State.completedWith_ie (s : State) (code : ErrCode) (ovf : Bool) (result : Word) (dbuf : Vector Byte 16) : (s.completedWith code ovf result dbuf).ie = s.ie := rfl
@[simp] theorem State.completedWith_toz (s : State) (code : ErrCode) (ovf : Bool) (result : Word) (dbuf : Vector Byte 16) : (s.completedWith code ovf result dbuf).toz = s.toz := rfl
@[simp] theorem State.completedWith_done (s : State) (code : ErrCode) (ovf : Bool) (result : Word) (dbuf : Vector Byte 16) : (s.completedWith code ovf result dbuf).done = true := rfl
@[simp] theorem State.completedWith_ovf (s : State) (code : ErrCode) (ovf : Bool) (result : Word) (dbuf : Vector Byte 16) : (s.completedWith code ovf result dbuf).ovf = (s.ovf || ovf) := rfl
@[simp] theorem State.completedWith_wbusy (s : State) (code : ErrCode) (ovf : Bool) (result : Word) (dbuf : Vector Byte 16) : (s.completedWith code ovf result dbuf).wbusy = s.wbusy := rfl
@[simp] theorem State.completedWith_err (s : State) (code : ErrCode) (ovf : Bool) (result : Word) (dbuf : Vector Byte 16) : (s.completedWith code ovf result dbuf).err = code := rfl
@[simp] theorem State.completedWith_cmd (s : State) (code : ErrCode) (ovf : Bool) (result : Word) (dbuf : Vector Byte 16) : (s.completedWith code ovf result dbuf).cmd = s.cmd := rfl
@[simp] theorem State.completedWith_arg0 (s : State) (code : ErrCode) (ovf : Bool) (result : Word) (dbuf : Vector Byte 16) : (s.completedWith code ovf result dbuf).arg0 = s.arg0 := rfl
@[simp] theorem State.completedWith_arg1 (s : State) (code : ErrCode) (ovf : Bool) (result : Word) (dbuf : Vector Byte 16) : (s.completedWith code ovf result dbuf).arg1 = s.arg1 := rfl
@[simp] theorem State.completedWith_result (s : State) (code : ErrCode) (ovf : Bool) (result : Word) (dbuf : Vector Byte 16) : (s.completedWith code ovf result dbuf).result = result := rfl
@[simp] theorem State.completedWith_owDrv (s : State) (code : ErrCode) (ovf : Bool) (result : Word) (dbuf : Vector Byte 16) : (s.completedWith code ovf result dbuf).owDrv = s.owDrv := rfl
@[simp] theorem State.completedWith_pwDrv (s : State) (code : ErrCode) (ovf : Bool) (result : Word) (dbuf : Vector Byte 16) : (s.completedWith code ovf result dbuf).pwDrv = s.pwDrv := rfl
@[simp] theorem State.completedWith_dbuf (s : State) (code : ErrCode) (ovf : Bool) (result : Word) (dbuf : Vector Byte 16) : (s.completedWith code ovf result dbuf).dbuf = dbuf := rfl
@[simp] theorem State.completedWith_tim0 (s : State) (code : ErrCode) (ovf : Bool) (result : Word) (dbuf : Vector Byte 16) : (s.completedWith code ovf result dbuf).tim0 = s.tim0 := rfl
@[simp] theorem State.completedWith_tim1 (s : State) (code : ErrCode) (ovf : Bool) (result : Word) (dbuf : Vector Byte 16) : (s.completedWith code ovf result dbuf).tim1 = s.tim1 := rfl
@[simp] theorem State.completedWith_tim2 (s : State) (code : ErrCode) (ovf : Bool) (result : Word) (dbuf : Vector Byte 16) : (s.completedWith code ovf result dbuf).tim2 = s.tim2 := rfl
@[simp] theorem State.completedWith_tim3 (s : State) (code : ErrCode) (ovf : Bool) (result : Word) (dbuf : Vector Byte 16) : (s.completedWith code ovf result dbuf).tim3 = s.tim3 := rfl
@[simp] theorem State.completedWith_tStart (s : State) (code : ErrCode) (ovf : Bool) (result : Word) (dbuf : Vector Byte 16) : (s.completedWith code ovf result dbuf).tStart = s.tStart := rfl
@[simp] theorem State.completedWith_seq (s : State) (code : ErrCode) (ovf : Bool) (result : Word) (dbuf : Vector Byte 16) : (s.completedWith code ovf result dbuf).seq = .idle := rfl
@[simp] theorem State.completedWith_latch (s : State) (code : ErrCode) (ovf : Bool) (result : Word) (dbuf : Vector Byte 16) : (s.completedWith code ovf result dbuf).latch = s.latch := rfl
@[simp] theorem State.completedWith_tick (s : State) (code : ErrCode) (ovf : Bool) (result : Word) (dbuf : Vector Byte 16) : (s.completedWith code ovf result dbuf).tick = s.tick := rfl
@[simp] theorem State.completedWith_staged (s : State) (code : ErrCode) (ovf : Bool) (result : Word) (dbuf : Vector Byte 16) : (s.completedWith code ovf result dbuf).staged = [] := rfl
@[simp] theorem State.completedWith_ovfSeen (s : State) (code : ErrCode) (ovf : Bool) (result : Word) (dbuf : Vector Byte 16) : (s.completedWith code ovf result dbuf).ovfSeen = false := rfl
@[simp] theorem State.completedWith_seqDrvOw (s : State) (code : ErrCode) (ovf : Bool) (result : Word) (dbuf : Vector Byte 16) : (s.completedWith code ovf result dbuf).seqDrvOw = false := rfl
@[simp] theorem State.completedWith_seqDrvPw (s : State) (code : ErrCode) (ovf : Bool) (result : Word) (dbuf : Vector Byte 16) : (s.completedWith code ovf result dbuf).seqDrvPw = false := rfl
@[simp] theorem State.completedWith_prescaler (s : State) (code : ErrCode) (ovf : Bool) (result : Word) (dbuf : Vector Byte 16) : (s.completedWith code ovf result dbuf).prescaler = s.prescaler := rfl
@[simp] theorem State.completedWith_owSync (s : State) (code : ErrCode) (ovf : Bool) (result : Word) (dbuf : Vector Byte 16) : (s.completedWith code ovf result dbuf).owSync = s.owSync := rfl
@[simp] theorem State.completedWith_pwSync (s : State) (code : ErrCode) (ovf : Bool) (result : Word) (dbuf : Vector Byte 16) : (s.completedWith code ovf result dbuf).pwSync = s.pwSync := rfl
@[simp] theorem State.completedWith_rdata (s : State) (code : ErrCode) (ovf : Bool) (result : Word) (dbuf : Vector Byte 16) : (s.completedWith code ovf result dbuf).rdata = s.rdata := rfl
@[simp] theorem State.completedWith_phase (s : State) (code : ErrCode) (ovf : Bool) (result : Word) (dbuf : Vector Byte 16) : (s.completedWith code ovf result dbuf).phase = s.phase := rfl
@[simp] theorem State.completedWith_wait (s : State) (code : ErrCode) (ovf : Bool) (result : Word) (dbuf : Vector Byte 16) : (s.completedWith code ovf result dbuf).wait = s.wait := rfl
@[simp] theorem State.completedWith_port (s : State) (code : ErrCode) (ovf : Bool) (result : Word) (dbuf : Vector Byte 16) : (s.completedWith code ovf result dbuf).port = s.port := rfl
@[simp] theorem State.completedWith_waves (s : State) (code : ErrCode) (ovf : Bool) (result : Word) (dbuf : Vector Byte 16) : (s.completedWith code ovf result dbuf).waves = s.waves := rfl
@[simp] theorem State.completedWith_draw (s : State) (code : ErrCode) (ovf : Bool) (result : Word) (dbuf : Vector Byte 16) : (s.completedWith code ovf result dbuf).draw = s.draw + 1 := rfl
@[simp] theorem State.completedWith_clock (s : State) (code : ErrCode) (ovf : Bool) (result : Word) (dbuf : Vector Byte 16) : (s.completedWith code ovf result dbuf).clock = s.clock := rfl

@[simp] theorem State.resetEdge_ie (s : State) (c : PortCycle) : (s.resetEdge c).ie = State.reset.ie := rfl
@[simp] theorem State.resetEdge_toz (s : State) (c : PortCycle) : (s.resetEdge c).toz = State.reset.toz := rfl
@[simp] theorem State.resetEdge_done (s : State) (c : PortCycle) : (s.resetEdge c).done = State.reset.done := rfl
@[simp] theorem State.resetEdge_ovf (s : State) (c : PortCycle) : (s.resetEdge c).ovf = State.reset.ovf := rfl
@[simp] theorem State.resetEdge_wbusy (s : State) (c : PortCycle) : (s.resetEdge c).wbusy = State.reset.wbusy := rfl
@[simp] theorem State.resetEdge_err (s : State) (c : PortCycle) : (s.resetEdge c).err = State.reset.err := rfl
@[simp] theorem State.resetEdge_cmd (s : State) (c : PortCycle) : (s.resetEdge c).cmd = State.reset.cmd := rfl
@[simp] theorem State.resetEdge_arg0 (s : State) (c : PortCycle) : (s.resetEdge c).arg0 = State.reset.arg0 := rfl
@[simp] theorem State.resetEdge_arg1 (s : State) (c : PortCycle) : (s.resetEdge c).arg1 = State.reset.arg1 := rfl
@[simp] theorem State.resetEdge_result (s : State) (c : PortCycle) : (s.resetEdge c).result = State.reset.result := rfl
@[simp] theorem State.resetEdge_owDrv (s : State) (c : PortCycle) : (s.resetEdge c).owDrv = State.reset.owDrv := rfl
@[simp] theorem State.resetEdge_pwDrv (s : State) (c : PortCycle) : (s.resetEdge c).pwDrv = State.reset.pwDrv := rfl
@[simp] theorem State.resetEdge_dbuf (s : State) (c : PortCycle) : (s.resetEdge c).dbuf = State.reset.dbuf := rfl
@[simp] theorem State.resetEdge_tim0 (s : State) (c : PortCycle) : (s.resetEdge c).tim0 = State.reset.tim0 := rfl
@[simp] theorem State.resetEdge_tim1 (s : State) (c : PortCycle) : (s.resetEdge c).tim1 = State.reset.tim1 := rfl
@[simp] theorem State.resetEdge_tim2 (s : State) (c : PortCycle) : (s.resetEdge c).tim2 = State.reset.tim2 := rfl
@[simp] theorem State.resetEdge_tim3 (s : State) (c : PortCycle) : (s.resetEdge c).tim3 = State.reset.tim3 := rfl
@[simp] theorem State.resetEdge_tStart (s : State) (c : PortCycle) : (s.resetEdge c).tStart = State.reset.tStart := rfl
@[simp] theorem State.resetEdge_seq (s : State) (c : PortCycle) : (s.resetEdge c).seq = State.reset.seq := rfl
@[simp] theorem State.resetEdge_latch (s : State) (c : PortCycle) : (s.resetEdge c).latch = State.reset.latch := rfl
@[simp] theorem State.resetEdge_tick (s : State) (c : PortCycle) : (s.resetEdge c).tick = State.reset.tick := rfl
@[simp] theorem State.resetEdge_staged (s : State) (c : PortCycle) : (s.resetEdge c).staged = State.reset.staged := rfl
@[simp] theorem State.resetEdge_ovfSeen (s : State) (c : PortCycle) : (s.resetEdge c).ovfSeen = State.reset.ovfSeen := rfl
@[simp] theorem State.resetEdge_seqDrvOw (s : State) (c : PortCycle) : (s.resetEdge c).seqDrvOw = State.reset.seqDrvOw := rfl
@[simp] theorem State.resetEdge_seqDrvPw (s : State) (c : PortCycle) : (s.resetEdge c).seqDrvPw = State.reset.seqDrvPw := rfl
@[simp] theorem State.resetEdge_prescaler (s : State) (c : PortCycle) : (s.resetEdge c).prescaler = State.reset.prescaler := rfl
@[simp] theorem State.resetEdge_owSync (s : State) (c : PortCycle) : (s.resetEdge c).owSync = Synchroniser.afterReset .ow s.clock := rfl
@[simp] theorem State.resetEdge_pwSync (s : State) (c : PortCycle) : (s.resetEdge c).pwSync = Synchroniser.afterReset .pw s.clock := rfl
@[simp] theorem State.resetEdge_rdata (s : State) (c : PortCycle) : (s.resetEdge c).rdata = if c.rd then s.readReg (Reg.ofAddr c.addr) else s.rdata := rfl
@[simp] theorem State.resetEdge_phase (s : State) (c : PortCycle) : (s.resetEdge c).phase = State.reset.phase := rfl
@[simp] theorem State.resetEdge_wait (s : State) (c : PortCycle) : (s.resetEdge c).wait = State.reset.wait := rfl
@[simp] theorem State.resetEdge_port (s : State) (c : PortCycle) : (s.resetEdge c).port = s.port.tail := rfl
@[simp] theorem State.resetEdge_waves (s : State) (c : PortCycle) : (s.resetEdge c).waves = s.waves := rfl
@[simp] theorem State.resetEdge_draw (s : State) (c : PortCycle) : (s.resetEdge c).draw = s.draw + 1 := rfl
@[simp] theorem State.resetEdge_clock (s : State) (c : PortCycle) : (s.resetEdge c).clock = s.clock + 1 := rfl

end Sys2Proof.Machine
end

