-- ==== Sys2Proof/Laws/Ops.lean ====
section
/-! SUPPORT. What each shared operation can do, said once: command fields, the frame buffer, staged writes, completion, the opening
checks of a line command, and the bounded wait. -/

namespace Sys2Proof

@[simp] theorem cmdOp_cmdWord (op : BitVec 8) (sel : BitVec 4) (rsv : BitVec 20) : cmdOp (cmdWord op sel rsv) = op := by
  ext j hj
  simp only [cmdOp, cmdWord, BitVec.getElem_extractLsb', BitVec.getLsbD_append]
  simp [hj]

@[simp] theorem cmdSel_cmdWord (op : BitVec 8) (sel : BitVec 4) (rsv : BitVec 20) : cmdSel (cmdWord op sel rsv) = sel := by
  ext j hj
  simp only [cmdSel, cmdWord, BitVec.getElem_extractLsb', BitVec.getLsbD_append]
  simp [hj]

@[simp] theorem cmdRsv_cmdWord (op : BitVec 8) (sel : BitVec 4) (rsv : BitVec 20) : cmdRsv (cmdWord op sel rsv) = rsv := by
  ext j hj
  simp only [cmdRsv, cmdWord, BitVec.getElem_extractLsb', BitVec.getLsbD_append]
  have h1 : ¬ 12 + j < 8 := by omega
  have h2 : ¬ 12 + j - 8 < 4 := by omega
  have h3 : 12 + j - 8 - 4 = j := by omega
  simp [h1, h2, h3, hj]

/-- The three fields determine the word (30_encoding.md R120). -/
theorem cmdWord_fields (w : Word) : cmdWord (cmdOp w) (cmdSel w) (cmdRsv w) = w := by
  apply BitVec.eq_of_getLsbD_eq
  intro j hj
  simp only [cmdWord, cmdOp, cmdSel, cmdRsv, BitVec.getLsbD_append, BitVec.getLsbD_extractLsb']
  by_cases h8 : j < 8
  · simp [h8]
  · by_cases h12 : j - 8 < 4
    · have : 8 + (j - 8) = j := by omega
      simp [h8, h12, this]
    · have h1 : 12 + (j - 8 - 4) = j := by omega
      have h2 : j - 8 - 4 < 20 := by omega
      simp [h8, h12, h1, h2]

namespace Machine

@[simp] theorem Latch.word_latchOf (w : Word) (s : State) : (s.latchOf w).word = w := cmdWord_fields w

@[simp] theorem State.busy_eq_true (s : State) : s.busy = true ↔ s.seq = .run := by simp [State.busy]

@[simp] theorem State.busy_eq_false (s : State) : s.busy = false ↔ s.seq = .idle := by
  cases h : s.seq <;> simp [State.busy, h]

theorem Seq.ne_run {q : Seq} : q ≠ .run ↔ q = .idle := by cases q <;> simp

@[simp] theorem State.dbufByte_setDbuf_same (s : State) (i : BitVec 4) (b : Byte) : (s.setDbuf i b).dbufByte i = b := by
  simp [State.dbufByte]

theorem State.dbufByte_setDbuf_of_ne (s : State) {i j : BitVec 4} (b : Byte) (h : j ≠ i) :
    (s.setDbuf i b).dbufByte j = s.dbufByte j := by
  have hne : i.toNat ≠ j.toNat := fun e => h (BitVec.eq_of_toNat_eq e.symm)
  simp [State.dbufByte, hne]

theorem State.dbufByte_setDbuf (s : State) (i j : BitVec 4) (b : Byte) :
    (s.setDbuf i b).dbufByte j = if j = i then b else s.dbufByte j := by
  by_cases h : j = i
  · subst h
    simp
  · simp [h, State.dbufByte_setDbuf_of_ne]

/-- The free draws behind the line levels are read through `waves` and `draw` alone. -/
theorem State.ext_congr {s s' : State} (hw : s.waves = s'.waves) (hd : s.draw = s'.draw) : s.ext = s'.ext := by
  funext x t
  simp [State.ext, hw, hd]

/-- A staged write changes RESULT or one byte of DBUF, nothing else. -/
theorem Staged.apply_eq (w : Staged) (s : State) : w.apply s = { s with result := (w.apply s).result, dbuf := (w.apply s).dbuf } := by
  cases w <;> rfl

/-- Committing staged writes changes RESULT and DBUF, nothing else. -/
theorem State.commit_eq (ws : List Staged) (s : State) :
    s.commit ws = { s with result := (s.commit ws).result, dbuf := (s.commit ws).dbuf } := by
  induction ws generalizing s with
  | nil => rfl
  | cons w ws ih =>
    have h := ih (w.apply s)
    simp only [State.commit, List.foldl_cons] at h ⊢
    rw [h, Staged.apply_eq w s]

@[simp] theorem State.commit_nil (s : State) : s.commit [] = s := rfl

@[simp] theorem State.commit_cons (w : Staged) (ws : List Staged) (s : State) : s.commit (w :: ws) = (w.apply s).commit ws := rfl

/-- What a report leaves in RESULT. -/
def Report.resultAfter (r : Report) (s : State) : Word := if r.code.commits then (s.commit r.staged).result else s.result

/-- What a report leaves in DBUF. -/
def Report.dbufAfter (r : Report) (s : State) : Vector Byte 16 := if r.code.commits then (s.commit r.staged).dbuf else s.dbuf

theorem State.commit_congr (ws : List Staged) {s s' : State} (hr : s.result = s'.result) (hd : s.dbuf = s'.dbuf) :
    (s.commit ws).result = (s'.commit ws).result ∧ (s.commit ws).dbuf = (s'.commit ws).dbuf := by
  induction ws generalizing s s' with
  | nil => exact ⟨hr, hd⟩
  | cons w ws ih =>
    refine ih ?_ ?_ <;> cases w <;> simp [Staged.apply, hr, hd]

/-- Completion, once: everything `finish` can do (40_common.md R154). -/
theorem State.finish_eq (r : Report) (s : State) :
    s.finish r = s.completedWith r.code r.ovfSeen (r.resultAfter s) (r.dbufAfter s) := by
  have hc := State.commit_congr r.staged (s := { s with staged := r.staged, ovfSeen := r.ovfSeen }) (s' := s) rfl rfl
  unfold State.finish State.complete Report.resultAfter Report.dbufAfter
  cases h : r.code.commits
  · rfl
  · simp only [if_true]
    rw [State.commit_eq]
    rw [hc.1, hc.2]
    rfl

theorem State.finish_raise (code : ErrCode) (s : State) : s.finish (.raise code) = s.completedWith code false s.result s.dbuf := by
  rw [State.finish_eq]
  cases code <;> rfl

theorem State.finish_nothing (code : ErrCode) (ovf : Bool) (d : Option Nat) (s : State) :
    s.finish ⟨code, [], ovf, d⟩ = s.completedWith code ovf s.result s.dbuf := by
  rw [State.finish_eq]
  cases code <;> rfl

theorem State.finish_result (v : Word) (ovf : Bool) (d : Option Nat) (s : State) {code : ErrCode} (h : code.commits = true) :
    s.finish ⟨code, [.result v], ovf, d⟩ = s.completedWith code ovf v s.dbuf := by
  rw [State.finish_eq]
  simp [Report.resultAfter, Report.dbufAfter, h, Staged.apply]

theorem State.lineCommand_driven {s : State} {x : Line} (legal : Bool) (body : Report) (h : s.manualDrive x = true) :
    s.lineCommand x legal body = .raise .badcfg := by simp [State.lineCommand, h]

theorem State.lineCommand_illegal (s : State) (x : Line) (body : Report) : s.lineCommand x false body = .raise .badcfg := by
  simp [State.lineCommand]

theorem State.lineCommand_legal {s : State} {x : Line} (body : Report) (h : s.manualDrive x = false) :
    s.lineCommand x true body = body := by simp [State.lineCommand, h]

/-- A bounded wait finds the first tick with the level, if one comes within the budget (40_common.md R159). -/
theorem waitLevel_found {line : Nat → Bool} {lvl : Bool} {t : Nat} (b s : Nat) (h : FirstAt line lvl s t) (hb : t < s + b) :
    waitLevel line lvl s b = .found t := by
  induction b generalizing s with
  | zero => exact absurd h.1 (by omega)
  | succ b ih =>
    obtain ⟨h1, h2, h3⟩ := h
    unfold waitLevel
    by_cases hs : s = t
    · subst hs
      simp [h2]
    · have hne : line s ≠ lvl := by
        rw [h3 s le_rfl (by omega)]
        cases lvl <;> simp
      rw [if_neg hne]
      exact ih (s + 1) ⟨by omega, h2, fun u hu hut => h3 u (by omega) hut⟩ (by omega)

/-- A bounded wait expires on its last tick if the level never comes (40_common.md R159). -/
theorem waitLevel_expired {line : Nat → Bool} {lvl : Bool} (b s : Nat) (h : Holds line (!lvl) s (s + b)) :
    waitLevel line lvl s b = .expired (s + b - 1) := by
  induction b generalizing s with
  | zero => simp [waitLevel]
  | succ b ih =>
    unfold waitLevel
    have hne : line s ≠ lvl := by
      rw [h s le_rfl (by omega)]
      cases lvl <;> simp
    rw [if_neg hne, ih (s + 1) (fun u hu hut => h u (by omega) (by omega))]
    congr 1
    omega

/-- A bounded wait ends in one of two ways, within its budget (40_common.md R159). -/
theorem waitLevel_cases (line : Nat → Bool) (lvl : Bool) (b s : Nat) :
    (∃ t, waitLevel line lvl s b = .found t ∧ FirstAt line lvl s t ∧ t < s + b) ∨
      (waitLevel line lvl s b = .expired (s + b - 1) ∧ Holds line (!lvl) s (s + b)) := by
  induction b generalizing s with
  | zero => exact .inr ⟨rfl, fun u hu hub => absurd hub (by omega)⟩
  | succ b ih =>
    by_cases hs : line s = lvl
    · exact .inl ⟨s, by simp [waitLevel, hs], ⟨le_rfl, hs, fun u hu hus => absurd hus (by omega)⟩, by omega⟩
    · have hn : line s = !lvl := by revert hs; cases line s <;> cases lvl <;> simp
      have hw : waitLevel line lvl s (b + 1) = waitLevel line lvl (s + 1) b := by simp only [waitLevel]; rw [if_neg hs]
      have key : ∀ u, s ≤ u → u = s ∨ s + 1 ≤ u := fun u hu => by omega
      rcases ih (s + 1) with ⟨t, ht, hf, hb⟩ | ⟨he, hh⟩
      · refine .inl ⟨t, hw.trans ht, ⟨by have := hf.1; omega, hf.2.1, fun u hu hut => ?_⟩, by omega⟩
        rcases key u hu with rfl | hu'
        · exact hn
        · exact hf.2.2 u hu' hut
      · refine .inr ⟨by rw [hw, he]; congr 1; omega, fun u hu hub => ?_⟩
        rcases key u hu with rfl | hu'
        · exact hn
        · exact hh u hu' (by omega)

/-- A bounded wait reads the line only up to the tick it ends on (40_common.md R158). -/
theorem waitLevel_congr {line line' : Nat → Bool} (lvl : Bool) (b s e : Nat) (h : ∀ t, s ≤ t → t < e → line t = line' t)
    (he : ∀ t, waitLevel line lvl s b = .found t → t < e) (hx : waitLevel line lvl s b = .expired (s + b - 1) → s + b ≤ e) :
    waitLevel line' lvl s b = waitLevel line lvl s b := by
  rcases waitLevel_cases line lvl b s with ⟨t, ht, hf, hb⟩ | ⟨hw, hh⟩
  · have hte := he t ht
    rw [ht]
    refine waitLevel_found b s ⟨hf.1, ?_, fun u hu hut => ?_⟩ hb
    · rw [← h t hf.1 hte]
      exact hf.2.1
    · rw [← h u hu (by omega)]
      exact hf.2.2 u hu hut
  · have hle := hx hw
    rw [hw]
    refine waitLevel_expired b s (fun u hu hub => ?_)
    rw [← h u hu (by omega)]
    exact hh u hu hub

end Machine
end Sys2Proof
end

