-- ==== Sys2Proof/Laws/Machine.lean ====
section
/-! SUPPORT. What the sequencer's and the host's part of an edge can do, said once. -/

namespace Sys2Proof.Machine

/-- Every meaning is the completion with the run's report. -/
theorem exec_eq (i : Instr) (s : State) : exec i s = .next (s.finish (commandReport i s)) := by cases i <;> rfl

/-- The completion edge, for a command and for a reserved word. -/
theorem completionEdge_eq (s : State) : s.completionEdge = .next (s.finish s.latchedReport) := by
  unfold State.completionEdge State.latchedReport
  split <;> simp [exec_eq, *]

/-- Scheduling sets `phase` and `wait`, nothing else. -/
theorem schedule_eq (s : State) : s.schedule = { s with phase := s.schedule.phase, wait := s.schedule.wait } := rfl

theorem schedule_untimed {s : State} (h : s.latchedReport.ticks = none) :
    s.schedule = { s with phase := .untimed, wait := Config.computeLat - 1 } := by
  simp only [State.schedule, h]

theorem schedule_timed {s : State} {d : Nat} (h : s.latchedReport.ticks = some d) :
    s.schedule = { s with phase := .issue s.leadEdges, wait := s.leadEdges + d * Config.clkPerUs - 1 } := by
  simp only [State.schedule, h]

/-- Accept is the register writes of R151 and the countdown. -/
theorem accept_eq (w : Word) (s : State) :
    s.accept w = { s.takeCommand w with phase := (s.accept w).phase, wait := (s.accept w).wait } := schedule_eq _

/-- What an edge of a running command that is not its completion edge changes. -/
theorem advance_eq (s : State) :
    s.advance = { s with
      wait := s.wait - 1
      phase := s.advance.phase
      tick := s.advance.tick
      seqDrvOw := s.advance.seqDrvOw
      seqDrvPw := s.advance.seqDrvPw } := by
  cases s with
  | mk _ _ _ _ _ _ _ _ _ _ _ _ _ _ _ _ _ _ _ _ _ _ _ _ _ p _ _ _ ph _ _ _ _ _ =>
    cases ph with
    | untimed => rfl
    | issue n => unfold State.advance; by_cases h : n ≤ 1 <;> simp [h, State.startTick]
    | ticking => unfold State.advance; by_cases h : p = 0 <;> simp [h, State.startTick]

/-- What a host write can change while BUSY = 1 (10_state.md R48). -/
theorem writeReg_busy_eq (v : Word) (r : Reg) (s : State) :
    s.writeReg true v r = { s with
      ie := (s.writeReg true v r).ie
      toz := (s.writeReg true v r).toz
      done := (s.writeReg true v r).done
      ovf := (s.writeReg true v r).ovf
      wbusy := (s.writeReg true v r).wbusy
      arg0 := (s.writeReg true v r).arg0
      arg1 := (s.writeReg true v r).arg1
      tim0 := (s.writeReg true v r).tim0
      tim1 := (s.writeReg true v r).tim1
      tim2 := (s.writeReg true v r).tim2
      tim3 := (s.writeReg true v r).tim3
      tStart := (s.writeReg true v r).tStart } := by cases r <;> rfl

/-- What no edge changes of a running command before the sequencer's own part: everything the command reads or is timed by. -/
structure SameRun (s e : State) : Prop where
  seq : e.seq = s.seq
  latch : e.latch = s.latch
  cmd : e.cmd = s.cmd
  result : e.result = s.result
  dbuf : e.dbuf = s.dbuf
  err : e.err = s.err
  owDrv : e.owDrv = s.owDrv
  pwDrv : e.pwDrv = s.pwDrv
  tick : e.tick = s.tick
  staged : e.staged = s.staged
  ovfSeen : e.ovfSeen = s.ovfSeen
  seqDrvOw : e.seqDrvOw = s.seqDrvOw
  seqDrvPw : e.seqDrvPw = s.seqDrvPw
  phase : e.phase = s.phase
  wait : e.wait = s.wait
  waves : e.waves = s.waves
  draw : e.draw = s.draw

theorem sameRun_clockEdge (c : PortCycle) (s : State) : SameRun s (s.clockEdge c) := by constructor <;> rfl

theorem sameRun_writeReg (v : Word) (r : Reg) (s : State) : SameRun s (s.writeReg true v r) := by
  rw [writeReg_busy_eq]
  constructor <;> rfl

theorem SameRun.trans {a b c : State} (h : SameRun a b) (h' : SameRun b c) : SameRun a c := by
  constructor <;> simp [h.1, h.2, h.3, h.4, h.5, h.6, h.7, h.8, h.9, h.10, h.11, h.12, h.13, h.14, h.15, h.16, h.17,
    h'.1, h'.2, h'.3, h'.4, h'.5, h'.6, h'.7, h'.8, h'.9, h'.10, h'.11, h'.12, h'.13, h'.14, h'.15, h'.16, h'.17]

/-- The host's part of an edge leaves a running command as it is (10_state.md R46, R48). -/
theorem sameRun_hostEdge {s : State} (h : s.seq = .run) (c : PortCycle) : SameRun s (s.hostEdge c) := by
  unfold State.hostEdge
  have hb : s.busy = true := (State.busy_eq_true s).2 h
  rw [hb]
  split
  · exact (sameRun_clockEdge c s).trans (sameRun_writeReg _ _ _)
  · exact sameRun_clockEdge c s

theorem manualDrive_congr {s s' : State} (ho : s.owDrv = s'.owDrv) (hp : s.pwDrv = s'.pwDrv) (x : Line) :
    s.manualDrive x = s'.manualDrive x := by cases x <;> simp [State.manualDrive, ho, hp]

/-- The run of a command reads the latched set, the manual drive bits and the line levels, nothing else (40_common.md R162). -/
theorem commandReport_congr {s s' : State} (hl : s.latch = s'.latch) (ho : s.owDrv = s'.owDrv) (hp : s.pwDrv = s'.pwDrv)
    (hx : s.ext = s'.ext) (i : Instr) : commandReport i s = commandReport i s' := by
  have hm := manualDrive_congr ho hp
  have hll : s.lineLevel = s'.lineLevel := by
    funext x drv t
    simp [State.lineLevel, hx]
  cases i <;>
    simp [commandReport, nopReport, owResetReport, owWrbitReport, owRdbitReport, owWrbyteReport, owRdbyteReport, pwSyncReport,
      pwBitReport, pwFrameReport, bcdDecReport, bcdEncReport, dowReport, chkCrc8Report, chkSum8Report, State.lineCommand, hl, hm, hll]

theorem SameRun.report {s e : State} (h : SameRun s e) : e.latchedReport = s.latchedReport := by
  unfold State.latchedReport
  rw [h.latch]
  split
  · exact commandReport_congr h.latch h.owDrv h.pwDrv (State.ext_congr h.waves h.draw) _
  · rfl

theorem SameRun.drive {s e : State} (h : SameRun s e) : e.latchedDrive = s.latchedDrive := by
  funext x t
  unfold State.latchedDrive
  rw [h.latch]

theorem SameRun.seqDrive {s e : State} (h : SameRun s e) (x : Line) : e.seqDrive x = s.seqDrive x := by
  cases x <;> simp [State.seqDrive, h.seqDrvOw, h.seqDrvPw]

/-- The step, once: refused, a reset edge, the completion edge, an edge of a running command, or an edge with none. -/
theorem step_cases (s : State) :
    ((s.cycle.rd && s.cycle.wr) = true ∧ step s = .refused .readAndWrite) ∨
    ((s.cycle.rd && s.cycle.wr) = false ∧ s.cycle.rstN = false ∧ step s = .next (s.resetEdge s.cycle)) ∨
    (Runs s ∧ s.seq = .run ∧ s.wait = 0 ∧ step s = .next ((s.hostEdge s.cycle).finish (s.hostEdge s.cycle).latchedReport)) ∨
    (Runs s ∧ s.seq = .run ∧ s.wait ≠ 0 ∧ step s = .next (s.hostEdge s.cycle).advance) ∨
    (Runs s ∧ s.seq = .idle ∧ step s = .next (s.hostEdge s.cycle)) := by
  unfold step
  cases hb : s.cycle.rd && s.cycle.wr
  · cases hr : s.cycle.rstN
    · exact .inr (.inl ⟨rfl, rfl, by simp⟩)
    · have hR : Runs s := ⟨hr, hb⟩
      by_cases hq : s.seq = .run
      · by_cases hw : s.wait = 0
        · exact .inr (.inr (.inl ⟨hR, hq, hw, by simp [State.runEdge, hq, hw, completionEdge_eq]⟩))
        · exact .inr (.inr (.inr (.inl ⟨hR, hq, hw, by simp [State.runEdge, hq, hw]⟩)))
      · exact .inr (.inr (.inr (.inr ⟨hR, Seq.ne_run.1 hq, by simp [State.runEdge, hq]⟩)))
  · exact .inl ⟨rfl, by simp⟩

theorem step_completion {s : State} (h : Runs s) (hq : s.seq = .run) (hw : s.wait = 0) :
    step s = .next ((s.hostEdge s.cycle).finish s.latchedReport) := by
  simp [step, h.1, h.2, State.runEdge, hq, hw, completionEdge_eq, (sameRun_hostEdge hq s.cycle).report]

theorem step_running {s : State} (h : Runs s) (hq : s.seq = .run) (hw : s.wait ≠ 0) :
    step s = .next (s.hostEdge s.cycle).advance := by simp [step, h.1, h.2, State.runEdge, hq, hw]

theorem step_idle {s : State} (h : Runs s) (hq : s.seq = .idle) : step s = .next (s.hostEdge s.cycle) := by
  simp [step, h.1, h.2, State.runEdge, hq]

theorem Writes.runs {s : State} {r : Reg} (h : Writes s r) : Runs s := ⟨h.1, by simp [h.2.1]⟩

/-- The host's part of an edge that writes a register. -/
theorem hostEdge_writes {s : State} {r : Reg} (h : Writes s r) :
    s.hostEdge s.cycle = (s.clockEdge s.cycle).writeReg s.busy s.cycle.wdata r := by
  simp [State.hostEdge, h.2.2.1, h.2.2.2]

/-- What a host write can change while BUSY = 0, but for the accept of a command. -/
theorem writeReg_idle_eq (v : Word) {r : Reg} (s : State) (h : r ≠ .cmd) :
    s.writeReg false v r = { s with
      ie := (s.writeReg false v r).ie
      toz := (s.writeReg false v r).toz
      done := (s.writeReg false v r).done
      ovf := (s.writeReg false v r).ovf
      wbusy := (s.writeReg false v r).wbusy
      arg0 := (s.writeReg false v r).arg0
      arg1 := (s.writeReg false v r).arg1
      owDrv := (s.writeReg false v r).owDrv
      pwDrv := (s.writeReg false v r).pwDrv
      dbuf := (s.writeReg false v r).dbuf
      tim0 := (s.writeReg false v r).tim0
      tim1 := (s.writeReg false v r).tim1
      tim2 := (s.writeReg false v r).tim2
      tim3 := (s.writeReg false v r).tim3
      tStart := (s.writeReg false v r).tStart } := by
  cases r with
  | cmd => exact absurd rfl h
  | dbuf k =>
    have hf : s.writeReg false v (.dbuf k) = { s with dbuf := (s.setDbufWord k v).dbuf } := rfl
    rw [hf]
  | _ => rfl

/-- A host write while BUSY = 0 that accepts no command leaves the sequencer alone. -/
theorem writeReg_idle_drive (v : Word) {r : Reg} (s : State) (h : r ≠ .cmd) :
    (s.writeReg false v r).seq = s.seq ∧ ∀ x, (s.writeReg false v r).seqDrive x = s.seqDrive x := by
  have e := writeReg_idle_eq v s h
  generalize s.writeReg false v r = t at e
  rw [e]
  exact ⟨rfl, fun x => by cases x <;> rfl⟩

/-- The host's part of an edge with no command running accepts a command, or leaves the sequencer alone. -/
theorem hostEdge_idle_cases (c : PortCycle) {s : State} (hq : s.seq = .idle) :
    (∃ w, s.hostEdge c = (s.clockEdge c).accept w) ∨
      ((s.hostEdge c).seq = .idle ∧ ∀ x, (s.hostEdge c).seqDrive x = s.seqDrive x) := by
  have hc0 : (s.clockEdge c).seq = s.seq ∧ ∀ x, (s.clockEdge c).seqDrive x = s.seqDrive x :=
    ⟨rfl, fun x => by cases x <;> rfl⟩
  unfold State.hostEdge
  rw [(State.busy_eq_false s).2 hq]
  generalize s.clockEdge c = u at *
  split
  · by_cases hc : Reg.ofAddr c.addr = .cmd
    · rw [hc]
      exact .inl ⟨_, rfl⟩
    · have := writeReg_idle_drive c.wdata u hc
      exact .inr ⟨this.1.trans (hc0.1.trans hq), fun x => (this.2 x).trans (hc0.2 x)⟩
  · exact .inr ⟨hc0.1.trans hq, hc0.2⟩

/-- No host write touches the timebase. -/
theorem writeReg_prescaler (b : Bool) (v : Word) (r : Reg) (s : State) : (s.writeReg b v r).prescaler = s.prescaler := by
  cases r <;> simp only [State.writeReg] <;> first | rfl | (split <;> first | rfl | (rw [accept_eq]; rfl))

/-- Every edge out of reset moves the timebase on (10_state.md R51). -/
theorem hostEdge_prescaler (c : PortCycle) (s : State) : (s.hostEdge c).prescaler = nextPrescaler s.prescaler := by
  unfold State.hostEdge
  split
  · rw [writeReg_prescaler]
    rfl
  · rfl

theorem clkPerUs_pos : 0 < Config.clkPerUs := Nat.succ_pos _

theorem nextPrescaler_lt (p : Nat) : nextPrescaler p < Config.clkPerUs := by
  unfold nextPrescaler
  split
  · assumption
  · exact clkPerUs_pos

/-- The start of tick 0 lies after accept, on a tick boundary (40_common.md R156). -/
theorem startDelay_spec (k lat p : Nat) (hk : 0 < k) (hl : 1 ≤ lat) :
    1 ≤ startDelay k lat p ∧ (p + startDelay k lat p) % k = 0 := by
  unfold startDelay
  refine ⟨by omega, ?_⟩
  have h1 := Nat.div_add_mod (p + lat) k
  set m := (p + lat) % k with hm
  have hmlt : m < k := Nat.mod_lt _ hk
  by_cases h0 : m = 0
  · rw [h0, Nat.sub_zero, Nat.mod_self, Nat.add_zero]
    omega
  · rw [Nat.mod_eq_of_lt (show k - m < k by omega)]
    have : p + (lat + (k - m)) = k * ((p + lat) / k + 1) := by
      rw [Nat.mul_add]
      omega
    rw [this]
    simp

theorem startTick_seqDrive (s : State) (t : Nat) (x : Line) : (s.startTick t).seqDrive x = s.latchedDrive x t := by
  cases x <;> rfl

/-- One more step of a run of any machine. -/
theorem run_succ (M : Host.Core) (k : Nat) (s : M.State) :
    M.run (k + 1) s =
      match M.step s with
      | .next t => M.run k t
      | .fault r => .fault r
      | .refused r => .refused r := by with_unfolding_all rfl

/-- One more step of a run of this machine. -/
theorem core_run_succ {s t : State} (k : Nat) (h : step s = .next t) :
    Host.Core.run Sys2Proof.core (k + 1) s = Host.Core.run Sys2Proof.core k t := by
  refine (run_succ Sys2Proof.core k s).trans ?_
  have h' : Sys2Proof.core.step s = .next t := h
  rw [h']

end Sys2Proof.Machine
end

