-- ==== Sys2Proof/Laws/Commands.lean ====
section
/-! SUPPORT. The pieces of the single-wire, BCD and checksum commands, said once: slots, received bytes, fields, and how the CRC
register takes a byte. -/

namespace Sys2Proof.Machine

/-- The check of a line command decides between BADCFG and its body (60_exceptions.md R351). -/
theorem State.lineCommand_cases (s : State) (x : Line) (legal : Bool) (body : Report) :
    s.lineCommand x legal body = .raise .badcfg ∨ s.lineCommand x legal body = body := by
  unfold State.lineCommand
  split
  · exact .inl rfl
  · split
    · exact .inr rfl
    · exact .inl rfl

theorem writeSlotStart_mono (L : Latch) (v : Byte) {a b : Nat} (h : a ≤ b) : writeSlotStart L v a ≤ writeSlotStart L v b := by
  induction h with
  | refl => rfl
  | step _ ih => exact le_trans ih (Nat.le_add_right _ _)

theorem writeSlotLow_le_len (L : Latch) (b : Bool) : writeSlotLow L b ≤ writeSlotLen L b := by
  cases b <;> simp [writeSlotLow, writeSlotLen]

/-- The start of slot `k` is the sum of the lengths before it (41_single_wire.md R205). -/
theorem writeSlotStart_eq_sum (L : Latch) (v : Byte) (k : Nat) :
    writeSlotStart L v k = ((List.range k).map fun j => writeSlotLen L (v.getLsbD j)).sum := by
  induction k with
  | zero => rfl
  | succ k ih =>
    rw [List.range_succ, List.map_append, List.sum_append, ← ih]
    simp [writeSlotStart]

/-- Bit `k` of the byte read is the sample of slot `k` (41_single_wire.md R206). -/
theorem readByte_getLsbD (L : Latch) (line : Nat → Bool) (k : Nat) (hk : k < 8) :
    (readByte L line).getLsbD k = line (readSampleTick L (k * L.tRslot.toNat)) := by
  simp only [readByte, List.range, List.range.loop, List.foldl]
  simp only [BitVec.getLsbD_or, BitVec.getLsbD_shiftLeft, BitVec.getLsbD_setWidth]
  interval_cases k <;> simp

theorem BcdField.ofSel_none {sel : BitVec 4} (h : 7 < sel.toNat) : BcdField.ofSel sel = none := by
  revert h
  revert sel
  decide

/-- Each legal SEL names a field with the range the table prints (43_bcd.md R280). -/
theorem BcdField.ofSel_legal {sel : BitVec 4} (h : sel.toNat ≤ 7) :
    ∃ f, BcdField.ofSel sel = some f ∧ (f = .sec ↔ sel = 1#4) ∧ (f = .year ↔ sel = 7#4) ∧
      f.lo = (bcdRanges.getD sel.toNat (1, 0)).1 ∧ f.hi = (bcdRanges.getD sel.toNat (1, 0)).2 := by
  have key : ∀ sel : BitVec 4, sel.toNat ≤ 7 →
      BcdField.ofSel sel = some ((BcdField.ofSel sel).getD .raw) ∧
      ((BcdField.ofSel sel).getD .raw = .sec ↔ sel = 1#4) ∧ ((BcdField.ofSel sel).getD .raw = .year ↔ sel = 7#4) ∧
      ((BcdField.ofSel sel).getD .raw).lo = (bcdRanges.getD sel.toNat (1, 0)).1 ∧
      ((BcdField.ofSel sel).getD .raw).hi = (bcdRanges.getD sel.toNat (1, 0)).2 := by decide
  exact ⟨_, key sel h⟩

theorem resultOrInvalid_ticks (o : Option Nat) : (resultOrInvalid o).ticks = none := by cases o <;> rfl

theorem crcShift_fold (c x : Byte) : crcShift c x ^^^ (x >>> 1) = crcShift (c ^^^ x) 0#8 := by
  simp only [crcShift, BitVec.xor_zero, BitVec.ushiftRight_xor_distrib]
  split
  · rw [BitVec.xor_assoc, BitVec.xor_comm 0x8C#8, ← BitVec.xor_assoc]
  · rfl

theorem crcBits_fold (n : Nat) : ∀ c x : Byte, crcBits n c x ^^^ (x >>> n) = crcBits n (c ^^^ x) 0#8 := by
  induction n with
  | zero =>
    intro c x
    simp [crcBits]
  | succ n ih =>
    intro c x
    simp only [crcBits]
    have : x >>> (n + 1) = (x >>> 1) >>> n := by rw [Nat.add_comm, BitVec.shiftRight_add]
    rw [this, ih, crcShift_fold]
    simp

/-- The CRC register takes a byte by exclusive or, then shifts (45_checksum.md R330). -/
theorem crcByte_fold (c x : Byte) : crcByte c x = crcByte (c ^^^ x) 0#8 := by
  have := crcBits_fold 8 c x
  have h0 : x >>> 8 = 0#8 := by
    apply BitVec.eq_of_getLsbD_eq
    intro i hi
    simp
  rw [h0, BitVec.xor_zero] at this
  exact this

end Sys2Proof.Machine
end

