-- ==== Sys2Proof/Laws/Decode.lean ====
section
/-! SUPPORT. The decoder by the fields of the word, said once. -/

namespace Sys2Proof

theorem decode_cmdWord (op : BitVec 8) (sel : BitVec 4) (rsv : BitVec 20) :
    decode (cmdWord op sel rsv) = if rsv = 0#20 then decodeOp op sel else .error .reservedBits := by simp [decode]

theorem decodePlain_ok {sel : BitVec 4} {i j : Instr} : decodePlain sel i = .ok j ↔ sel = 0#4 ∧ i = j := by
  unfold decodePlain
  split <;> simp [*]

theorem decodeSel_ok {i j : Instr} : decodeSel i = .ok j ↔ i.wellFormed = true ∧ i = j := by
  unfold decodeSel
  split <;> simp [*]

/-- Every word is the word of its three fields. -/
theorem word_split (w : Word) : ∃ op sel rsv, w = cmdWord op sel rsv := ⟨_, _, _, (cmdWord_fields w).symm⟩

theorem cmdWord_inj {op op' : BitVec 8} {sel sel' : BitVec 4} {rsv rsv' : BitVec 20} :
    cmdWord op sel rsv = cmdWord op' sel' rsv' ↔ op = op' ∧ sel = sel' ∧ rsv = rsv' := by
  constructor
  · intro h
    exact ⟨by simpa using congrArg cmdOp h, by simpa using congrArg cmdSel h, by simpa using congrArg cmdRsv h⟩
  · rintro ⟨rfl, rfl, rfl⟩
    rfl

theorem cmdWord_and (op op' : BitVec 8) (sel sel' : BitVec 4) (rsv rsv' : BitVec 20) :
    cmdWord op sel rsv &&& cmdWord op' sel' rsv' = cmdWord (op &&& op') (sel &&& sel') (rsv &&& rsv') := by
  apply BitVec.eq_of_getLsbD_eq
  intro j hj
  simp only [cmdWord, BitVec.getLsbD_and, BitVec.getLsbD_append]
  by_cases h8 : j < 8 <;> by_cases h12 : j - 8 < 4 <;> simp [h8, h12]

/-- The words with the OP of a command that takes no SEL: one decodes, all others are reserved. -/
theorem decode_of_plain {op : BitVec 8} {i : Instr} (h : ∀ sel, decodeOp op sel = decodePlain sel i) (w : Word)
    (hw : cmdOp w = op) :
    (w = cmdWord op 0#4 0#20 ∧ decode w = .ok i) ∨ (w ≠ cmdWord op 0#4 0#20 ∧ ∃ e, decode w = .error e) := by
  obtain ⟨op', sel, rsv, rfl⟩ := word_split w
  rw [cmdOp_cmdWord] at hw
  subst hw
  simp only [ne_eq, cmdWord_inj, true_and, decode_cmdWord, h, decodePlain]
  by_cases hr : rsv = 0#20 <;> by_cases hs : sel = 0#4 <;> simp [hr, hs]

/-- The words with the OP of a command that takes a SEL: RSV and the legal SEL values decide. -/
theorem decode_of_sel {op : BitVec 8} {f : BitVec 4 → Instr} (h : ∀ sel, decodeOp op sel = decodeSel (f sel)) (w : Word)
    (hw : cmdOp w = op) :
    (cmdRsv w = 0#20 ∧ (f (cmdSel w)).wellFormed = true ∧ decode w = .ok (f (cmdSel w))) ∨
      ((cmdRsv w ≠ 0#20 ∨ (f (cmdSel w)).wellFormed = false) ∧ ∃ e, decode w = .error e) := by
  obtain ⟨op', sel, rsv, rfl⟩ := word_split w
  rw [cmdOp_cmdWord] at hw
  subst hw
  simp only [ne_eq, decode_cmdWord, h, decodeSel, cmdRsv_cmdWord, cmdSel_cmdWord]
  by_cases hr : rsv = 0#20 <;> cases hs : (f sel).wellFormed <;> simp [hr]

end Sys2Proof
end

