-- ==== Sys2Proof/Laws/PerInstr.lean ====
section
/-! SUPPORT. One lemma per command: its encoding is a word of its own row of the opcode map, and of no other row
(30_encoding.md R124, R126). -/

namespace Sys2Proof.Laws.EncodingMatchesItsRow

/-- The rows of the opcode map that admit the word of a well-formed command: its own, and no other. -/
def Statement (i : Instr) : Prop :=
  i.WellFormed → (opcodeMap.filter fun r => r.admits (encode i)).map (·.mnemonic) = [i.mnemonic]

theorem nop : Statement .nop := by
  unfold Statement
  decide

theorem owReset : Statement .owReset := by
  unfold Statement
  decide

theorem owWrbit : Statement .owWrbit := by
  unfold Statement
  decide

theorem owRdbit : Statement .owRdbit := by
  unfold Statement
  decide

theorem owWrbyte : Statement .owWrbyte := by
  unfold Statement
  decide

theorem owRdbyte (i : BitVec 4) : Statement (.owRdbyte i) := by
  revert i
  unfold Statement
  decide +kernel

theorem pwSync : Statement .pwSync := by
  unfold Statement
  decide

theorem pwBit : Statement .pwBit := by
  unfold Statement
  decide

theorem pwFrame (sel : BitVec 4) : Statement (.pwFrame sel) := by
  revert sel
  unfold Statement
  decide +kernel

theorem bcdDec (sel : BitVec 4) : Statement (.bcdDec sel) := by
  revert sel
  unfold Statement
  decide +kernel

theorem bcdEnc (sel : BitVec 4) : Statement (.bcdEnc sel) := by
  revert sel
  unfold Statement
  decide +kernel

theorem dow : Statement .dow := by
  unfold Statement
  decide

theorem chkCrc8 (n : BitVec 4) : Statement (.chkCrc8 n) := by
  revert n
  unfold Statement
  decide +kernel

theorem chkSum8 (n : BitVec 4) : Statement (.chkSum8 n) := by
  revert n
  unfold Statement
  decide +kernel

end Sys2Proof.Laws.EncodingMatchesItsRow
end

