-- ==== Sys2Proof/Laws/PulseWidth.lean ====
section
/-! SUPPORT. How the primitives of the pulse-width commands end, said once, and the ticks they take (42_pulse_width.md R240 to
R250). -/

namespace Sys2Proof.Machine

/-- A bounded wait ends inside its budget (40_common.md R159). -/
theorem waitLevel_bounds (line : Nat → Bool) (lvl : Bool) (s b : Nat) (hb : 1 ≤ b) :
    (∀ t, waitLevel line lvl s b = .found t → s ≤ t ∧ t + 1 ≤ s + b) ∧
      (∀ e, waitLevel line lvl s b = .expired e → s ≤ e ∧ e + 1 = s + b) := by
  rcases waitLevel_cases line lvl b s with ⟨t, ht, hf, hlt⟩ | ⟨he, _⟩
  · rw [ht]
    refine ⟨fun t' h => ?_, fun e h => (by cases h)⟩
    cases h
    exact ⟨hf.1, by omega⟩
  · rw [he]
    refine ⟨fun t' h => (by cases h), fun e h => ?_⟩
    cases h
    exact ⟨by omega, by omega⟩

/-- The synchronisation phase ends within three budgets (42_pulse_width.md R242). -/
theorem syncPhase_bounds (L : Latch) (line : Nat → Bool) (s : Nat) (h : 1 ≤ L.tSync.toNat) :
    (∀ n, syncPhase L line s = .synced n → s + 1 ≤ n ∧ n ≤ s + 3 * L.tSync.toNat) ∧
      (∀ e, syncPhase L line s = .noDevice e → s ≤ e ∧ e + 1 ≤ s + 3 * L.tSync.toNat) := by
  unfold syncPhase
  have w := fun lvl s => waitLevel_bounds line lvl s _ h
  split
  · rename_i e he
    have := (w _ _).2 _ he
    exact ⟨fun _ h => (by cases h), fun _ h => by cases h; omega⟩
  · rename_i t1 h1
    have g1 := (w _ _).1 _ h1
    split
    · rename_i e he
      have := (w _ _).2 _ he
      exact ⟨fun _ h => (by cases h), fun _ h => by cases h; omega⟩
    · rename_i t2 h2
      have g2 := (w _ _).1 _ h2
      split
      · rename_i e he
        have := (w _ _).2 _ he
        exact ⟨fun _ h => (by cases h), fun _ h => by cases h; omega⟩
      · rename_i t3 h3
        have g3 := (w _ _).1 _ h3
        exact ⟨fun _ h => (by cases h; omega), fun _ h => by cases h⟩

/-- One measurement ends within one wait and one bound (42_pulse_width.md R240). -/
theorem measureBit_bounds (L : Latch) (line : Nat → Bool) (s : Nat) (h : 1 ≤ L.tSync.toNat) (h2 : 1 ≤ L.tPwmax.toNat) :
    (∀ b d n, measureBit L line s = .bit b d n → s + 1 ≤ n ∧ n ≤ s + (L.tSync.toNat + L.tPwmax.toNat)) ∧
      (∀ n, measureBit L line s = .overflow n → s + 1 ≤ n ∧ n ≤ s + (L.tSync.toNat + L.tPwmax.toNat)) ∧
      (∀ e, measureBit L line s = .startTimeout e → s ≤ e ∧ e + 1 ≤ s + (L.tSync.toNat + L.tPwmax.toNat)) := by
  unfold measureBit
  split
  · rename_i e he
    have := (waitLevel_bounds _ _ _ _ h).2 _ he
    refine ⟨?_, ?_, ?_⟩ <;> intros <;> rename_i h <;> cases h <;> omega
  · rename_i r hr
    have g := (waitLevel_bounds _ _ _ _ h).1 _ hr
    split
    · rename_i q hq
      have := (waitLevel_bounds _ _ _ _ h2).1 _ hq
      refine ⟨?_, ?_, ?_⟩ <;> intros <;> rename_i h <;> cases h <;> omega
    · rename_i e he
      have := (waitLevel_bounds _ _ _ _ h2).2 _ he
      refine ⟨?_, ?_, ?_⟩ <;> intros <;> rename_i h <;> cases h <;> omega

/-- The loop over a frame's bits ends within that many measurements (42_pulse_width.md R249). -/
theorem measureBits_bounds (L : Latch) (line : Nat → Bool) (h : 1 ≤ L.tSync.toNat) (h2 : 1 ≤ L.tPwmax.toNat) (n : Nat) :
    ∀ s bits ovf,
      (∀ b o e, measureBits L line n s bits ovf = .captured b o e →
        s ≤ e ∧ e ≤ s + n * (L.tSync.toNat + L.tPwmax.toNat)) ∧
      (∀ o e, measureBits L line n s bits ovf = .timedOut o e →
        s + 1 ≤ e ∧ e ≤ s + n * (L.tSync.toNat + L.tPwmax.toNat)) := by
  induction n with
  | zero =>
    intro s bits ovf
    refine ⟨?_, ?_⟩ <;> intros <;> rename_i h <;> cases h
    simp
  | succ n ih =>
    intro s bits ovf
    obtain ⟨b1, b2, b3⟩ := measureBit_bounds L line s h h2
    simp only [measureBits, Nat.add_mul, Nat.one_mul]
    split
    · rename_i hm
      have g := b1 _ _ _ hm
      obtain ⟨i1, i2⟩ := ih _ (bits ++ [‹_›]) ovf
      exact ⟨fun b o e he => by have := i1 _ _ _ he; omega, fun o e he => by have := i2 _ _ he; omega⟩
    · rename_i hm
      have g := b2 _ hm
      split
      · obtain ⟨i1, i2⟩ := ih ‹_› (bits ++ [false]) true
        exact ⟨fun b o e he => by have := i1 _ _ _ he; omega, fun o e he => by have := i2 _ _ he; omega⟩
      · refine ⟨?_, ?_⟩ <;> intros <;> rename_i h <;> cases h
        omega
    · rename_i hm
      have g := b3 _ hm
      refine ⟨?_, ?_⟩ <;> intros <;> rename_i h <;> cases h
      omega

/-- A line command that has ticks passed its timing check. -/
theorem State.lineCommand_ticks {s : State} {x : Line} {legal : Bool} {body : Report} {d : Nat}
    (h : (s.lineCommand x legal body).ticks = some d) : legal = true ∧ body.ticks = some d := by
  unfold State.lineCommand at h
  split at h
  · cases h
  · split at h
    · exact ⟨by assumption, h⟩
    · cases h

/-- PW_SYNC and PW_BIT see the levels the outside world presents. -/
theorem State.lineLevel_noDrive (s : State) (x : Line) : s.lineLevel x noDrive = s.ext x := by
  funext t
  simp [State.lineLevel, noDrive]

/-- From the sync phase on, PW_FRAME sees the levels the outside world presents (42_pulse_width.md R246). -/
theorem State.lineLevel_frame (s : State) {sel : BitVec 4} {t : Nat} (h : frameSyncStart sel s.latch ≤ t) :
    s.lineLevel .pw (pwFrameDrive sel s.latch) t = s.ext .pw t := by
  have hd : pwFrameDrive sel s.latch t = false := by
    unfold pwFrameDrive frameSyncStart at *
    cases hf : frameStart sel <;> simp [hf] at h ⊢
    omega
  simp [State.lineLevel, hd]

/-- A bit that reached the bound is reported as a bit only with TOZ = 1 (42_pulse_width.md R241, R243). -/
theorem measureBits_ovf (L : Latch) (line : Nat → Bool) (hz : L.toz = false) (n : Nat) :
    ∀ s bits ovf b o e, measureBits L line n s bits ovf = .captured b o e → o = ovf := by
  induction n with
  | zero =>
    intro s bits ovf b o e h
    simp only [measureBits, FrameEnd.captured.injEq] at h
    exact h.2.1.symm
  | succ n ih =>
    intro s bits ovf b o e h
    simp only [measureBits] at h
    split at h
    · exact ih _ _ _ _ _ _ h
    · simp [hz] at h
    · simp at h

/-- Received bit `8k + m` is bit `7 - m` of byte `k` (42_pulse_width.md R244). -/
theorem packedByte_getLsbD (bits : List Bool) (k m : Nat) (hm : m < 8) :
    (packedByte bits k).getLsbD (7 - m) = receivedBit bits (8 * k + m) := by
  simp only [packedByte, List.range, List.range.loop, List.foldl]
  simp only [BitVec.getLsbD_or, BitVec.getLsbD_shiftLeft, BitVec.getLsbD_setWidth]
  interval_cases m <;> simp

/-- A run of PW_FRAME with ticks has at least one (40_common.md R156). -/
theorem pwFrame_ticks_pos (s : State) (sel : BitVec 4) (d : Nat) (h : (pwFrameReport sel s).ticks = some d) : 1 ≤ d := by
  simp only [pwFrameReport] at h
  split at h
  · obtain ⟨h1, h2⟩ := State.lineCommand_ticks h
    simp only [pwFrameTiming, Bool.and_eq_true, decide_eq_true_eq] at h1
    obtain ⟨⟨h1, h3⟩, _⟩ := h1
    generalize s.lineLevel .pw (pwFrameDrive sel s.latch) = line at h2
    split at h2
    · cases h2
      omega
    · rename_i n hm
      have g := (syncPhase_bounds s.latch line _ h1).1 _ hm
      have bb := measureBits_bounds s.latch line h1 h3 40 n [] false
      split at h2
      · rename_i hm
        have := bb.1 _ _ _ hm
        cases h2
        omega
      · rename_i hm
        have := bb.2 _ _ hm
        cases h2
        omega
  · cases h

end Sys2Proof.Machine
end

