-- ==== Sys2Proof/Laws/Window.lean ====
section
/-! SUPPORT. What the host reads: the bits of CTRL, STATUS and LINE, the byte lanes of DBUF, and what a write leaves of the other
registers. -/

namespace Sys2Proof.Machine

theorem State.ctrlWord_getLsbD (s : State) (j : Nat) :
    s.ctrlWord.getLsbD j = if j = 0 then s.ie else if j = 1 then s.toz else false := by
  simp only [State.ctrlWord, BitVec.getLsbD_append]
  rcases j with _ | _ | j <;> simp

theorem State.lineWord_getLsbD (s : State) (j : Nat) :
    s.lineWord.getLsbD j = if j = 0 then s.owDrv else if j = 1 then s.pwDrv else if j = 8 then s.lineIn .ow
      else if j = 9 then s.lineIn .pw else false := by
  simp only [State.lineWord, BitVec.getLsbD_append]
  by_cases h : j < 10
  · interval_cases j <;> simp
  · have e1 : j ≠ 0 := by omega
    have e2 : j ≠ 1 := by omega
    have e3 : j ≠ 8 := by omega
    have e4 : j ≠ 9 := by omega
    have h1 : ¬ j < 1 := by omega
    have h2 : ¬ j - 1 < 1 := by omega
    have h3 : ¬ j - 1 - 1 < 6 := by omega
    have h4 : ¬ j - 1 - 1 - 6 < 1 := by omega
    have h5 : ¬ j - 1 - 1 - 6 - 1 < 1 := by omega
    simp [e1, e2, e3, e4, h1, h2, h3, h4, h5]

theorem State.statusWord_getLsbD (s : State) (j : Nat) :
    s.statusWord.getLsbD j = if j = 0 then s.busy else if j = 1 then s.done else if j = 2 then s.ovf
      else if j = 3 then s.wbusy else if 8 ≤ j ∧ j < 11 then s.err.code.getLsbD (j - 8) else false := by
  simp only [State.statusWord, BitVec.getLsbD_append]
  by_cases h : j < 11
  · interval_cases j <;> simp
  · have e1 : j ≠ 0 := by omega
    have e2 : j ≠ 1 := by omega
    have e3 : j ≠ 2 := by omega
    have e4 : j ≠ 3 := by omega
    have h1 : ¬ j < 1 := by omega
    have h2 : ¬ j - 1 < 1 := by omega
    have h3 : ¬ j - 1 - 1 < 1 := by omega
    have h4 : ¬ j - 1 - 1 - 1 < 1 := by omega
    have h5 : ¬ j - 1 - 1 - 1 - 1 < 4 := by omega
    have h6 : ¬ j - 1 - 1 - 1 - 1 - 4 < 3 := by omega
    simp [h, e1, e2, e3, e4, h1, h2, h3, h4, h5, h6]

/-- The clocked part of an edge leaves what the host reads, but for LINE. -/
theorem State.readReg_clockEdge (c : PortCycle) (s : State) (r : Reg) (h : r ≠ .line) :
    (s.clockEdge c).readReg r = s.readReg r := by
  cases r with
  | line => exact absurd rfl h
  | _ => rfl

theorem State.dbufWord_congr {s s' : State} (h : s.dbuf = s'.dbuf) (k : BitVec 2) : s.dbufWord k = s'.dbufWord k := by
  simp [State.dbufWord, State.dbufByte, h]

theorem append_lane_ne : ∀ k a b : BitVec 2, a ≠ b → (k ++ a : BitVec 4) ≠ k ++ b := by decide

theorem append_word_ne : ∀ k k' a b : BitVec 2, k ≠ k' → (k' ++ a : BitVec 4) ≠ k ++ b := by decide

/-- Each byte of the frame buffer after a write of one of its words (10_state.md R39, 20_memory.md R90). -/
theorem State.dbufByte_setDbufWord (s : State) (k : BitVec 2) (v : Word) (j : BitVec 4) :
    (s.setDbufWord k v).dbufByte j = if j = k ++ 3#2 then v.extractLsb' 24 8 else if j = k ++ 2#2 then v.extractLsb' 16 8
      else if j = k ++ 1#2 then v.extractLsb' 8 8 else if j = k ++ 0#2 then v.extractLsb' 0 8 else s.dbufByte j := by
  simp only [State.setDbufWord, State.dbufByte_setDbuf]

theorem State.dbufWord_setDbufWord_same (s : State) (k : BitVec 2) (v : Word) : (s.setDbufWord k v).dbufWord k = v := by
  have hne := append_lane_ne k
  unfold State.dbufWord
  simp only [State.dbufByte_setDbufWord, if_true, if_neg (hne 2#2 3#2 (by decide)), if_neg (hne 1#2 3#2 (by decide)),
    if_neg (hne 1#2 2#2 (by decide)), if_neg (hne 0#2 3#2 (by decide)), if_neg (hne 0#2 2#2 (by decide)),
    if_neg (hne 0#2 1#2 (by decide))]
  apply BitVec.eq_of_getLsbD_eq
  intro j hj
  simp only [BitVec.getLsbD_append, BitVec.getLsbD_extractLsb']
  by_cases h8 : j < 8
  · simp [h8]
  · by_cases h16 : j - 8 < 8
    · simp [h8, h16]
      congr 1
      omega
    · by_cases h24 : j - 8 - 8 < 8
      · simp [h8, h16, h24]
        congr 1
        omega
      · have : j - 8 - 8 - 8 < 8 := by omega
        simp [h8, h16, h24, this]
        congr 1
        omega

theorem State.dbufWord_setDbufWord_of_ne (s : State) {k k' : BitVec 2} (v : Word) (h : k ≠ k') :
    (s.setDbufWord k v).dbufWord k' = s.dbufWord k' := by
  have hne := fun a b => append_word_ne k k' a b h
  simp only [State.dbufWord, State.setDbufWord, State.dbufByte_setDbuf, hne, if_false]

/-- A write of a DBUF word leaves every register but the DBUF words. -/
theorem State.readReg_writeReg_dbuf (s : State) (v : Word) (k : BitVec 2) (r : Reg) (h : ∀ k', r ≠ .dbuf k') :
    (s.writeReg false v (.dbuf k)).readReg r = s.readReg r := by
  have hf : s.writeReg false v (.dbuf k) = { s with dbuf := (s.setDbufWord k v).dbuf } := rfl
  rw [hf]
  generalize (s.setDbufWord k v).dbuf = d
  cases r with
  | dbuf k' => exact absurd rfl (h k')
  | _ => rfl

end Sys2Proof.Machine
end

