-- ==== Sys2Proof/Tests/Slice0.lean ====
section
/-! SUPPORT. Tests: the well-formedness smoke test, words written out from 30_encoding.md R124, vectors of 95_test_vectors.md (the
vector's name stands in each docstring), and for every statement with hypotheses a witness that meets them. -/

namespace Sys2Proof.Tests
open Sys2Proof Sys2Proof.Machine

/-! ## Well-formedness and decoding -/

/-- 30_encoding.md R122: a SEL value of each kind that is not legal. -/
theorem test_wellformed_refuses : (Instr.pwFrame 2#4).wellFormed = false ∧ (Instr.bcdDec 8#4).wellFormed = false ∧
    (Instr.bcdEnc 15#4).wellFormed = false := by decide

theorem test_wellformed_admits : (Instr.pwFrame 1#4).wellFormed = true ∧ (Instr.bcdDec 7#4).wellFormed = true ∧
    (Instr.bcdEnc 7#4).wellFormed = true ∧ (Instr.owRdbyte 15#4).wellFormed = true ∧
    (Instr.chkCrc8 15#4).wellFormed = true ∧ (Instr.chkSum8 15#4).wellFormed = true := by decide

/-- The patterns of 30_encoding.md R124, bit 31 first, one of each command that takes no SEL. -/
theorem test_decode_plain :
    decode 0b00000000000000000000000000000000#32 = .ok .nop ∧
    decode 0b00000000000000000000000000000001#32 = .ok .owReset ∧
    decode 0b00000000000000000000000000000010#32 = .ok .owWrbit ∧
    decode 0b00000000000000000000000000000011#32 = .ok .owRdbit ∧
    decode 0b00000000000000000000000000000100#32 = .ok .owWrbyte ∧
    decode 0b00000000000000000000000000010000#32 = .ok .pwSync ∧
    decode 0b00000000000000000000000000010001#32 = .ok .pwBit ∧
    decode 0b00000000000000000000000000110000#32 = .ok .dow := by decide

/-- The patterns of 30_encoding.md R124 with SEL bits, each with a SEL that tells its bits apart. -/
theorem test_decode_sel :
    decode 0b00000000000000000000101000000101#32 = .ok (.owRdbyte 10#4) ∧
    decode 0b00000000000000000000000100010010#32 = .ok (.pwFrame 1#4) ∧
    decode 0b00000000000000000000010100100000#32 = .ok (.bcdDec 5#4) ∧
    decode 0b00000000000000000000011000100001#32 = .ok (.bcdEnc 6#4) ∧
    decode 0b00000000000000000000110001000000#32 = .ok (.chkCrc8 12#4) ∧
    decode 0b00000000000000000000001101000001#32 = .ok (.chkSum8 3#4) := by decide

/-- Reserved words: program P4 (0x06, 0x1005), V-P17, V-B26, and a SEL on a command that takes none. -/
theorem test_decode_reserved :
    decode 0x00000006#32 = .error .reservedOp ∧ decode 0x00001005#32 = .error .reservedBits ∧
    decode 0x00000212#32 = .error .illegalSel ∧ decode 0x00000820#32 = .error .illegalSel ∧
    decode 0x00000101#32 = .error .illegalSel ∧ decode 0x80000000#32 = .error .reservedBits := by decide

theorem test_table_word : decodeTableWord 32 0x112 = some (.pwFrame 1#4) ∧ decodeTableWord 32 0x06 = none := by decide

/-! ## Helpers -/

/-- The reset state with the word `w` accepted from it and its completion due, on the given line levels. -/
def issued (w : Word) (levels : Wave) (s : State) : State :=
  { s with latch := s.latchOf w, cmd := w, seq := .run, waves := [levels] }

/-- RESULT, the error code and OVF after a command. -/
def outcome (i : Instr) (s : State) : Option (Word × ErrCode × Bool) :=
  match exec i s with
  | .next t => some (t.result, t.err, t.ovf)
  | .fault _ => none
  | .refused _ => none

/-- STATUS after a command. -/
def statusAfter (i : Instr) (s : State) : Option Word :=
  match exec i s with
  | .next t => some t.statusWord
  | .fault _ => none
  | .refused _ => none

/-- A DBUF word after a command. -/
def bufferAfter (i : Instr) (s : State) (k : BitVec 2) : Option Word :=
  match exec i s with
  | .next t => some (t.dbufWord k)
  | .fault _ => none
  | .refused _ => none

/-- The duration of a command. -/
def ticksOf (i : Instr) (s : State) : Option Nat := (commandReport i s).ticks

/-- A port cycle that writes a register. -/
def writeCycle (r : Reg) (v : Word) : PortCycle := ⟨true, false, true, r.addr, v, true, true⟩

/-- The reset state with one coming port cycle. -/
def facing (c : PortCycle) (s : State) : State := { s with port := [c] }

/-! ## Vectors -/

/-- V-N1: STATUS = 0x00000002 after NOP. -/
theorem test_nop_status : statusAfter .nop (issued 0#32 [] State.reset) = some 0x00000002#32 := by decide

/-- V-O2: the line is low at the sample tick only. -/
theorem test_ow_reset_presence :
    outcome .owReset (issued 1#32 [(true, 550), (false, 1), (true, 500)] State.reset) = some (1#32, .ok, false) ∧
    ticksOf .owReset (issued 1#32 [] State.reset) = some 960 := by decide +kernel

/-- V-O3: the pulse ends before the sample. -/
theorem test_ow_reset_early_pulse :
    outcome .owReset (issued 1#32 [(true, 549), (false, 1), (true, 500)] State.reset) = some (0#32, .ok, false) := by
  decide +kernel

/-- V-O8: a 1, low on ticks 0 to 9. -/
theorem test_ow_wrbit_one :
    ticksOf .owWrbit (issued 2#32 [] { State.reset with arg0 := 1#32 }) = some 65 ∧
    commandDrive .owWrbit ({ State.reset with arg0 := 1#32 }.latchOf 2#32) .ow 9 = true ∧
    commandDrive .owWrbit ({ State.reset with arg0 := 1#32 }.latchOf 2#32) .ow 10 = false := by decide

/-- V-O9: a 0, low on ticks 0 to 64. -/
theorem test_ow_wrbit_zero :
    ticksOf .owWrbit (issued 2#32 [] { State.reset with arg0 := 0xFFFFFFFE#32 }) = some 70 ∧
    commandDrive .owWrbit ({ State.reset with arg0 := 0xFFFFFFFE#32 }.latchOf 2#32) .ow 64 = true ∧
    commandDrive .owWrbit ({ State.reset with arg0 := 0xFFFFFFFE#32 }.latchOf 2#32) .ow 65 = false := by decide

/-- V-O10: low at tick 13 only. -/
theorem test_ow_rdbit_zero :
    outcome .owRdbit (issued 3#32 [(true, 13), (false, 1), (true, 60)] State.reset) = some (0#32, .ok, false) ∧
    ticksOf .owRdbit (issued 3#32 [] State.reset) = some 66 := by decide

/-- V-O13: T_RSLOT = 13. -/
theorem test_ow_rdbit_badcfg :
    outcome .owRdbit (issued 3#32 [] { State.reset with tim1 := 0x0D0A0346#32 }) = some (0#32, .badcfg, false) := by decide

/-- V-O15 with the slot starts listed under the table: 0xCC, 540 ticks, low on [140, 150) and [475, 485). -/
theorem test_ow_wrbyte_cc :
    ticksOf .owWrbyte (issued 4#32 [] { State.reset with arg0 := 0xCC#32 }) = some 540 ∧
    [139, 140, 149, 150, 474, 475, 484, 485].map
      (commandDrive .owWrbyte ({ State.reset with arg0 := 0xCC#32 }.latchOf 4#32) .ow) =
      [false, true, true, false, false, true, true, false] := by decide +kernel

/-- V-O21: 0x50, bit 0 first. -/
theorem test_ow_rdbyte_50 :
    outcome (.owRdbyte 0#4) (issued 5#32 [(false, 270), (true, 10), (false, 100), (true, 40), (false, 200)] State.reset) =
      some (0x50#32, .ok, false) ∧ ticksOf (.owRdbyte 0#4) (issued 5#32 [] State.reset) = some 528 := by decide +kernel

/-- V-O22: no device, DBUF[15]. -/
theorem test_ow_rdbyte_last_byte :
    bufferAfter (.owRdbyte 15#4) (issued 0xF05#32 [(true, 600)] State.reset) 3#2 = some 0xFF000000#32 := by decide +kernel

/-- V-P1: 181 ticks. -/
theorem test_pw_sync :
    ticksOf .pwSync (issued 0x10#32 [(true, 20), (false, 80), (true, 80), (false, 50)] State.reset) = some 181 ∧
    outcome .pwSync (issued 0x10#32 [(true, 20), (false, 80), (true, 80), (false, 50)] State.reset) =
      some (0#32, .ok, false) := by decide +kernel

/-- V-P3: stuck low, the second wait expires. -/
theorem test_pw_sync_stuck_low :
    statusAfter .pwSync (issued 0x10#32 [(false, 300)] State.reset) = some 0x00000102#32 ∧
    ticksOf .pwSync (issued 0x10#32 [(false, 300)] State.reset) = some 101 := by decide +kernel

/-- V-P7: `d = 41` is a 1. -/
theorem test_pw_bit_one :
    outcome .pwBit (issued 0x11#32 [(false, 5), (true, 41), (false, 200)] State.reset) = some (0x2901#32, .ok, false) ∧
    ticksOf .pwBit (issued 0x11#32 [(false, 5), (true, 41), (false, 200)] State.reset) = some 47 := by decide +kernel

/-- V-P9 and V-P10: the bound is hit, without and with TOZ. -/
theorem test_pw_bit_overflow :
    statusAfter .pwBit (issued 0x11#32 [(false, 5), (true, 101), (false, 200)] State.reset) = some 0x00000306#32 ∧
    statusAfter .pwBit (issued 0x11#32 [(false, 5), (true, 101), (false, 200)] { State.reset with toz := true }) =
      some 0x00000006#32 := by decide +kernel

/-- The waveform of program P3 for the byte bits, most-significant first: 50 low, then 26 or 70 high. -/
def pulses : List Bool → Wave
  | [] => [(false, 50), (true, 50)]
  | b :: bs => (false, 50) :: (true, if b then 70 else 26) :: pulses bs

/-- The 40 bits of 02 8C 01 05 94. -/
def sensorBits : List Bool :=
  [false, false, false, false, false, false, true, false, true, false, false, false, true, true, false, false] ++
  [false, false, false, false, false, false, false, true, false, false, false, false, false, true, false, true] ++
  [true, false, false, true, false, true, false, false]

/-- V-P14: 3661 ticks, DBUF0 = 0x05018C02, DBUF[4] = 0x94. -/
theorem test_pw_frame :
    bufferAfter (.pwFrame 0#4) (issued 0x12#32 ([(true, 20), (false, 80), (true, 80)] ++ pulses sensorBits) State.reset) 0#2 =
      some 0x05018C02#32 ∧
    bufferAfter (.pwFrame 0#4) (issued 0x12#32 ([(true, 20), (false, 80), (true, 80)] ++ pulses sensorBits) State.reset) 1#2 =
      some 0x00000094#32 ∧
    ticksOf (.pwFrame 0#4) (issued 0x12#32 ([(true, 20), (false, 80), (true, 80)] ++ pulses sensorBits) State.reset) =
      some 3661 := by decide +kernel

/-- V-P15: an overflow, nothing committed, STATUS = 0x00000306, 331 ticks. -/
theorem test_pw_frame_no_partial_commit :
    statusAfter (.pwFrame 0#4) (issued 0x12#32 [(true, 20), (false, 80), (true, 80), (false, 50), (true, 200)] State.reset) =
      some 0x00000306#32 ∧
    ticksOf (.pwFrame 0#4) (issued 0x12#32 [(true, 20), (false, 80), (true, 80), (false, 50), (true, 200)] State.reset) =
      some 331 := by decide +kernel

/-- V-B6 and V-B11: SEC masks bit 7, MIN does not. -/
theorem test_bcd_dec_clock_halt :
    outcome (.bcdDec 1#4) (issued 0x120#32 [] { State.reset with arg0 := 0xC5#32 }) = some (45#32, .ok, false) ∧
    outcome (.bcdDec 2#4) (issued 0x220#32 [] { State.reset with arg0 := 0x80#32 }) = some (0#32, .invalid, false) := by
  decide

/-- V-B16 and V-B3. -/
theorem test_bcd_dec_year :
    outcome (.bcdDec 7#4) (issued 0x720#32 [] { State.reset with arg0 := 0x99#32 }) = some (2099#32, .ok, false) ∧
    outcome (.bcdDec 0#4) (issued 0x020#32 [] { State.reset with arg0 := 0x1F#32 }) = some (0#32, .invalid, false) := by
  decide

/-- V-B24 and V-B25. -/
theorem test_bcd_enc_year :
    outcome (.bcdEnc 7#4) (issued 0x721#32 [] { State.reset with arg0 := 2024#32 }) = some (0x24#32, .ok, false) ∧
    outcome (.bcdEnc 7#4) (issued 0x721#32 [] { State.reset with arg0 := 2100#32 }) = some (0#32, .invalid, false) := by
  decide

/-- V-B18: all 32 bits count. -/
theorem test_bcd_enc_all_bits :
    outcome (.bcdEnc 0#4) (issued 0x021#32 [] { State.reset with arg0 := 0x00010063#32 }) = some (0#32, .invalid, false) := by
  decide

/-- V-K3 and V-K5. -/
theorem test_dow :
    outcome .dow (issued 0x30#32 [] { State.reset with arg0 := 2024#32, arg1 := 0x101#32 }) = some (1#32, .ok, false) ∧
    outcome .dow (issued 0x30#32 [] { State.reset with arg0 := 2024#32, arg1 := 0x1D02#32 }) = some (4#32, .ok, false) := by
  decide

/-- KIWI's scratchpad bytes with a last byte of choice (V-C1, V-C2). -/
def scratchpad (last : Byte) : Vector Byte 16 :=
  #v[0x50#8, 0x05#8, 0x4B#8, 0x46#8, 0x7F#8, 0xFF#8, 0x0C#8, 0x10#8, last, 0#8, 0#8, 0#8, 0#8, 0#8, 0#8, 0#8]

/-- V-C1 and V-C2: RESULT is committed on a match and on a mismatch. -/
theorem test_chk_crc8 :
    outcome (.chkCrc8 8#4) (issued 0x840#32 [] { State.reset with dbuf := scratchpad 0x1C#8 }) = some (0x1C#32, .ok, false) ∧
    outcome (.chkCrc8 8#4) (issued 0x840#32 [] { State.reset with dbuf := scratchpad 0x1D#8 }) =
      some (0x1C#32, .corrupt, false) := by decide +kernel

/-- The sensor frame with its byte 1 of choice (V-C8, V-C9). -/
def sensorFrame (b : Byte) : Vector Byte 16 :=
  #v[0x02#8, b, 0x01#8, 0x05#8, 0x94#8, 0#8, 0#8, 0#8, 0#8, 0#8, 0#8, 0#8, 0#8, 0#8, 0#8, 0#8]

/-- V-C8 and V-C9. -/
theorem test_chk_sum8 :
    outcome (.chkSum8 4#4) (issued 0x441#32 [] { State.reset with dbuf := sensorFrame 0x8C#8 }) = some (0x94#32, .ok, false) ∧
    outcome (.chkSum8 4#4) (issued 0x441#32 [] { State.reset with dbuf := sensorFrame 0x8D#8 }) =
      some (0x95#32, .corrupt, false) := by decide +kernel

/-- V-N3: only OVF is cleared. -/
theorem test_status_w1c :
    ({ State.reset with done := true, ovf := true, wbusy := true }.writeReg false 0x4#32 .status).statusWord = 0xA#32 := by
  decide

/-- V-N4: STATUS at the accept edge. -/
theorem test_accept_status :
    ({ State.reset with done := true, ovf := true, err := .corrupt }.takeCommand 0#32).statusWord = 0x5#32 := by decide

/-- V-N7 and V-N8. -/
theorem test_reserved_bits :
    (State.reset.writeReg false 0xFFFFFFFF#32 .tim4).readReg .tim4 = 0x0000FFFF#32 ∧
    (State.reset.writeReg true 0x12345678#32 .reserved).readReg .reserved = 0#32 ∧
    (State.reset.writeReg true 0x12345678#32 .reserved).wbusy = false := by decide

/-- 10_state.md R30: offsets. -/
theorem test_register_map : Reg.ofAddr 0x0A#6 = .dbuf 2#2 ∧ Reg.ofAddr 0x06#6 = .line ∧ Reg.ofAddr 0x07#6 = .reserved ∧
    Reg.ofAddr 0x11#6 = .reserved ∧ Reg.ofAddr 0x3F#6 = .reserved := by decide

/-- A program placed by `withFetchWord` runs on the next step: NOP sets DONE. -/
theorem test_step_runs_placed_word :
    (match step (State.reset.withFetchWord 32 0) with
      | .next t => some (t.done, t.seq)
      | .fault _ => none
      | .refused _ => none) = some (true, .idle) := by decide

/-! ## Witnesses: for each statement with hypotheses, a state and operands that meet them -/

/-- The reset state with every timing field at the least legal value of 60_exceptions.md R351: T_PDS, T_RS, T_THR and T_REL 0,
T_RSLOT 2, all others 1. -/
def least : State :=
  { State.reset with
    tim0 := 0x00010001#32
    tim1 := 0x02000100#32
    tim2 := 0x01010101#32
    tim3 := 0x00010100#32
    tStart := 1#16 }

/-- A run of the word `w` in a state, with edges left before its completion. -/
def running (w : Word) (edges : Nat) (s : State) : State := { s with latch := s.latchOf w, cmd := w, seq := .run, wait := edges }

theorem firstAt_self {line : Nat → Bool} {lvl : Bool} {t : Nat} (h : line t = lvl) : FirstAt line lvl t t :=
  ⟨le_rfl, h, fun u hu hut => absurd hu (by omega)⟩

theorem witness_EncodeDecodeAgree : decode 0x00000112#32 = .ok (.pwFrame 1#4) ∧ (Instr.pwFrame 1#4).WellFormed ∧
    0x00000112#32 = encode (.pwFrame 1#4) := by decide

theorem witness_EveryWordIsOneRowOrReserved : decode 0x00000741#32 = .ok (.chkSum8 7#4) ∧
    decode 0x00000042#32 = .error .reservedOp := by decide

theorem witness_ReservedEncodingsEndIllegal_accept :
    (facing (writeCycle .cmd 0x06#32) State.reset).seq = .idle ∧ Writes (facing (writeCycle .cmd 0x06#32) State.reset) .cmd ∧
    ReservedWord (facing (writeCycle .cmd 0x06#32) State.reset).cycle.wdata :=
  ⟨rfl, ⟨rfl, rfl, rfl, rfl⟩, .inl (.inl (by decide))⟩

theorem witness_ReservedEncodingsEndIllegal_completion :
    (running 0xFF#32 0 State.reset).seq = .run ∧ (running 0xFF#32 0 State.reset).wait = 0 ∧
    Runs (running 0xFF#32 0 State.reset) ∧ ReservedWord (running 0xFF#32 0 State.reset).latch.word :=
  ⟨rfl, rfl, ⟨rfl, rfl⟩, .inl (.inr (.inr (.inr (.inr (by decide)))))⟩

/-- What EndsIllegal asks of a state, at the least and the greatest reserved bit of the word. -/
theorem witness_EndsIllegal :
    ((running 0x80000011#32 0 State.reset).seq = .run ∧ (running 0x80000011#32 0 State.reset).wait = 0 ∧
      Runs (running 0x80000011#32 0 State.reset) ∧ (running 0x80000011#32 0 State.reset).latch.word = 0x80000011#32) ∧
    (running 0x00001040#32 0 State.reset).latch.word = 0x00001040#32 :=
  ⟨⟨rfl, rfl, ⟨rfl, rfl⟩, by decide⟩, by decide⟩

theorem witness_StepRunsLatchedCommand :
    (Runs (running 0x05#32 0 State.reset) ∧ (running 0x05#32 0 State.reset).seq = .run ∧
      (running 0x05#32 0 State.reset).wait = 0 ∧
      decode (running 0x05#32 0 State.reset).latch.word = .ok (.owRdbyte 0#4)) ∧
    (Runs (running 0#32 1 State.reset) ∧ (running 0#32 1 State.reset).seq = .run ∧ (running 0#32 1 State.reset).wait ≠ 0) ∧
    (Runs State.reset ∧ State.reset.seq = .idle ∧ State.reset.cycle.wr = false) :=
  ⟨⟨⟨rfl, rfl⟩, rfl, rfl, by decide⟩, ⟨⟨rfl, rfl⟩, rfl, by decide⟩, ⟨rfl, rfl⟩, rfl, rfl⟩

theorem witness_FetchWordRunsOnNextStep : decodeTableWord 32 0xF40 = some (.chkCrc8 15#4) := by decide

theorem witness_AcceptLatchesOperands :
    ((facing (writeCycle .cmd 0xFFFFFFFF#32) State.reset).seq = .idle ∧
      Writes (facing (writeCycle .cmd 0xFFFFFFFF#32) State.reset) .cmd) ∧
    ((running 0#32 1 (facing (writeCycle .cmd 1#32) State.reset)).seq = .run ∧
      Writes (running 0#32 1 (facing (writeCycle .cmd 1#32) State.reset)) .cmd ∧
      Runs (running 0#32 1 (facing (writeCycle .cmd 1#32) State.reset))) :=
  ⟨⟨rfl, rfl, rfl, rfl, rfl⟩, rfl, ⟨rfl, rfl, rfl, rfl⟩, rfl, rfl⟩

theorem witness_AcceptSchedulesCompletion :
    (State.reset.seq = .idle ∧ Writes (facing (writeCycle .cmd 0#32) State.reset) .cmd ∧
      (State.reset.accept 0#32).latchedReport.ticks = none) ∧
    (Writes (facing (writeCycle .cmd 1#32) State.reset) .cmd ∧
      (State.reset.accept 1#32).latchedReport.ticks = some 960) ∧
    ReservedWord (facing (writeCycle .cmd 0x06#32) State.reset).cycle.wdata :=
  ⟨⟨rfl, ⟨rfl, rfl, rfl, rfl⟩, by decide⟩, ⟨⟨rfl, rfl, rfl, rfl⟩, by decide⟩, .inl (.inl (by decide))⟩

/-- One state for each register the host may write while a command runs. -/
theorem witness_HostWritesWhileBusy (r : Reg) :
    (running 0#32 1 (facing (writeCycle r 0xFFFFFFFF#32) State.reset)).seq = .run ∧
    (running 0#32 1 (facing (writeCycle r 0xFFFFFFFF#32) State.reset)).cycle.wr = true ∧
    (running 0#32 1 (facing (writeCycle r 0xFFFFFFFF#32) State.reset)).cycle.wdata = 0xFFFFFFFF#32 ∧
    Reg.ofAddr (writeCycle r 0xFFFFFFFF#32).addr = r := by
  refine ⟨rfl, rfl, rfl, ?_⟩
  cases r with
  | dbuf k =>
    revert k
    decide
  | _ => rfl

theorem witness_WindowReadback : (Reg.dbuf 3#2 ≠ Reg.dbuf 0#2 ∧ Reg.dbuf 3#2 ≠ .cmd) ∧ (Reg.reserved ≠ .ctrl ∧ Reg.reserved ≠ .cmd) := by
  decide

theorem witness_ReadsChangeNothing :
    ((facing ⟨true, true, false, Reg.addr .status, 0, true, true⟩ State.reset).port =
      ⟨true, true, false, Reg.addr .status, 0, true, true⟩ :: []) ∧
    ∃ t, ({ State.reset with owSync := ⟨true, true⟩, pwSync := ⟨false, false⟩ }.seq = .run →
        { State.reset with owSync := ⟨true, true⟩, pwSync := ⟨false, false⟩ }.wait ≠ 0) ∧
      Runs { State.reset with owSync := ⟨true, true⟩, pwSync := ⟨false, false⟩ } ∧
      step { State.reset with owSync := ⟨true, true⟩, pwSync := ⟨false, false⟩ } = .next t ∧
      ∀ x, t.driveLow x = { State.reset with owSync := ⟨true, true⟩, pwSync := ⟨false, false⟩ }.driveLow x :=
  ⟨rfl, _, fun h => (by cases h), ⟨rfl, rfl⟩, step_idle ⟨rfl, rfl⟩ rfl, fun x => by cases x <;> rfl⟩

theorem witness_StepAnswersUnlessBothStrobes :
    ((facing ⟨true, true, true, 0, 0, true, true⟩ State.reset).cycle.rd = true ∧
      (facing ⟨true, true, true, 0, 0, true, true⟩ State.reset).cycle.wr = true) ∧
    (State.reset.cycle.rd && State.reset.cycle.wr) = false := ⟨⟨rfl, rfl⟩, rfl⟩

/-- An INVALID completion: DOW of the date 0-0-0. -/
theorem witness_FailedCommandCommitsNothing :
    outcome .dow (issued 0x30#32 [] State.reset) = some (0#32, .invalid, false) ∧ ErrCode.invalid ≠ .ok ∧
    ErrCode.invalid ≠ .corrupt := by decide

/-- The last byte PW_FRAME writes is 4; OW_RDBYTE 14 leaves byte 15. -/
theorem witness_CommandEffectsAreConfined :
    (∃ sel, Instr.pwFrame 1#4 = .pwFrame sel) ∧ Instr.owRdbyte 14#4 ≠ .owRdbyte 15#4 ∧ 5 ≤ (5#4).toNat := ⟨⟨_, rfl⟩, by decide⟩

theorem witness_NopCompletes : cmdOp 0#32 = 0x00#8 ∧ cmdOp 0x100#32 = 0x00#8 ∧
    (issued 0#32 [] State.reset).readReg .status = 0x00000001#32 ∧ ∃ t, exec .nop (issued 0#32 [] State.reset) = .next t :=
  ⟨by decide, by decide, by decide, _, rfl⟩

/-- NopCompletes, the accept from STATUS = 0. -/
theorem witness_NopCompletes_accept :
    (facing (writeCycle .cmd 0#32) State.reset).readReg .status = 0#32 ∧ Writes (facing (writeCycle .cmd 0#32) State.reset) .cmd ∧
    (facing (writeCycle .cmd 0#32) State.reset).cycle.wdata = 0#32 :=
  ⟨by decide, ⟨rfl, rfl, rfl, rfl⟩, rfl⟩

/-- StatusWriteOneToClear: both reserved ranges of STATUS at their ends. -/
theorem witness_StatusWriteOneToClear : (4 ≤ 4 ∧ 4 ≤ 7) ∧ (4 ≤ 7 ∧ 7 ≤ 7) ∧ 11 ≤ 11 ∧ 11 ≤ 31 := by decide

theorem witness_OwResetReportsPresence :
    (cmdOp 1#32 = 0x01#8 ∧ cmdOp 0x101#32 = 0x01#8) ∧
    ((issued 1#32 [] least).owDrv = false ∧ 1 ≤ (issued 1#32 [] least).latch.tRstl.toNat ∧
      1 ≤ (issued 1#32 [] least).latch.tRrec.toNat) ∧
    (issued 1#32 [] { least with owDrv := true }).owDrv = true ∧
    (issued 1#32 [] { least with tim0 := 0x00010000#32 }).latch.tRstl.toNat = 0 ∧
    (issued 1#32 [] { least with tim0 := 0x00000001#32 }).latch.tRrec.toNat = 0 := by decide

theorem witness_OwWrites :
    (cmdOp 2#32 = 0x02#8 ∧ cmdOp 0xFFFFFF02#32 = 0x02#8 ∧ cmdOp 4#32 = 0x04#8 ∧ cmdOp 0xF04#32 = 0x04#8) ∧
    ((issued 2#32 [] least).owDrv = false ∧ 1 ≤ (issued 2#32 [] least).latch.tW1l.toNat ∧
      1 ≤ (issued 2#32 [] least).latch.tW1h.toNat ∧ 1 ≤ (issued 2#32 [] least).latch.tW0l.toNat ∧
      1 ≤ (issued 2#32 [] least).latch.tW0h.toNat) ∧
    (issued 2#32 [] { least with owDrv := true }).owDrv = true ∧
    (issued 2#32 [] { least with tim2 := 0x00010101#32 }).latch.tW0h.toNat = 0 := by decide

/-- OwWrbyteDrivesEightSlots, its slots: the last tick of slot 7, which starts at tick 14. -/
theorem witness_OwWrbyteDrivesEightSlots :
    ((List.range 7).map fun j => if (least.latchOf 4#32).arg0.getLsbD j = true
      then (least.latchOf 4#32).tW1l.toNat + (least.latchOf 4#32).tW1h.toNat
      else (least.latchOf 4#32).tW0l.toNat + (least.latchOf 4#32).tW0h.toNat).sum = 14 ∧ 14 ≤ 15 ∧
    15 < 14 + ((least.latchOf 4#32).tW0l.toNat + (least.latchOf 4#32).tW0h.toNat) := by decide

theorem witness_OwReads :
    (cmdOp 3#32 = 0x03#8 ∧ cmdOp 0x103#32 = 0x03#8 ∧ cmdOp 0xF05#32 = 0x05#8 ∧ cmdOp 0x1005#32 = 0x05#8) ∧
    ((issued 3#32 [] least).owDrv = false ∧ 1 ≤ (issued 3#32 [] least).latch.tRl.toNat ∧
      (issued 3#32 [] least).latch.tRl.toNat + (issued 3#32 [] least).latch.tRs.toNat + 1 ≤
        (issued 3#32 [] least).latch.tRslot.toNat) ∧
    (issued 3#32 [] { least with owDrv := true }).owDrv = true ∧
    (issued 3#32 [] { least with tim1 := 0x02000000#32 }).latch.tRl.toNat = 0 ∧
    (issued 3#32 [] { least with tim1 := 0x01000100#32 }).latch.tRslot.toNat = 1 := by decide

/-- OwRdbyteReadsLeastBitFirst, its slots: the last tick of slot 7. -/
theorem witness_OwRdbyteReadsLeastBitFirst :
    7 * (least.latchOf 5#32).tRslot.toNat ≤ 15 ∧ 15 < 7 * (least.latchOf 5#32).tRslot.toNat + (least.latchOf 5#32).tRslot.toNat ∧
    (least.latchOf 5#32).tRl.toNat ≤ (least.latchOf 5#32).tRslot.toNat := by decide

/-- PwSyncWaitsLowHighLow, the lawful case and the first clause: T_SYNC = 1 and each level just in time. -/
theorem witness_PwSyncWaitsLowHighLow :
    (issued 0x10#32 [(false, 1), (true, 1), (false, 1)] least).pwDrv = false ∧
    1 ≤ (issued 0x10#32 [(false, 1), (true, 1), (false, 1)] least).latch.tSync.toNat ∧
    FirstAt ((issued 0x10#32 [(false, 1), (true, 1), (false, 1)] least).ext .pw) false 0 0 ∧
    FirstAt ((issued 0x10#32 [(false, 1), (true, 1), (false, 1)] least).ext .pw) true 1 1 ∧
    FirstAt ((issued 0x10#32 [(false, 1), (true, 1), (false, 1)] least).ext .pw) false 2 2 :=
  ⟨by decide, by decide, firstAt_self (by decide), firstAt_self (by decide), firstAt_self (by decide)⟩

theorem holds_one {line : Nat → Bool} {lvl : Bool} {t : Nat} (h : line t = lvl) : Holds line lvl t (t + 1) := fun u hu hut => by
  obtain rfl : u = t := by omega
  exact h

/-- PwSyncWaitsLowHighLow, each of the three waits expired, and BADCFG. -/
theorem witness_PwSyncWaitsLowHighLow_expired :
    Holds ((issued 0x10#32 [(true, 1)] least).ext .pw) true 0 1 ∧
    (FirstAt ((issued 0x10#32 [(false, 2)] least).ext .pw) false 0 0 ∧
      Holds ((issued 0x10#32 [(false, 2)] least).ext .pw) false 1 2) ∧
    (FirstAt ((issued 0x10#32 [(false, 1), (true, 2)] least).ext .pw) false 0 0 ∧
      FirstAt ((issued 0x10#32 [(false, 1), (true, 2)] least).ext .pw) true 1 1 ∧
      Holds ((issued 0x10#32 [(false, 1), (true, 2)] least).ext .pw) true 2 3) ∧
    (issued 0x10#32 [] { least with pwDrv := true }).pwDrv = true ∧
    (issued 0x10#32 [] { least with tim3 := 0x00000100#32 }).latch.tSync.toNat = 0 ∧
    cmdOp 0x10#32 = 0x10#8 ∧ cmdOp 0x110#32 = 0x10#8 :=
  ⟨holds_one (by decide), ⟨firstAt_self (by decide), holds_one (by decide)⟩,
    ⟨firstAt_self (by decide), firstAt_self (by decide), holds_one (by decide)⟩, by decide, by decide, by decide, by decide⟩

/-- PwBitMeasuresPulse: a pulse of the bound's length, a pulse beyond it, no pulse, and BADCFG. -/
theorem witness_PwBitMeasuresPulse :
    ((issued 0x11#32 [(true, 1), (false, 1)] least).pwDrv = false ∧
      1 ≤ (issued 0x11#32 [(true, 1), (false, 1)] least).latch.tSync.toNat ∧
      1 ≤ (issued 0x11#32 [(true, 1), (false, 1)] least).latch.tPwmax.toNat) ∧
    (FirstAt ((issued 0x11#32 [(true, 1), (false, 1)] least).ext .pw) true 0 0 ∧
      FirstAt ((issued 0x11#32 [(true, 1), (false, 1)] least).ext .pw) false 1 1 ∧
      1 ≤ 0 + (issued 0x11#32 [(true, 1), (false, 1)] least).latch.tPwmax.toNat) ∧
    (FirstAt ((issued 0x11#32 [(true, 2)] least).ext .pw) true 0 0 ∧
      Holds ((issued 0x11#32 [(true, 2)] least).ext .pw) true 0 2) ∧
    Holds ((issued 0x11#32 [(false, 1)] least).ext .pw) false 0 1 ∧
    (issued 0x11#32 [] { least with tim3 := 0x00010000#32 }).latch.tPwmax.toNat = 0 ∧
    cmdOp 0x11#32 = 0x11#8 ∧ cmdOp 0x80000011#32 = 0x11#8 :=
  ⟨by decide, ⟨firstAt_self (by decide), firstAt_self (by decide), by decide⟩,
    ⟨firstAt_self (by decide), fun u _ hut => by interval_cases u <;> decide⟩, holds_one (by decide), by decide, by decide,
    by decide⟩

/-- Low, high, low, then `n` pulses of one tick with one low tick between. -/
def shortPulses (n : Nat) : Wave := (false, 1) :: (true, 1) :: (List.replicate (n + 1) [(false, 1), (true, 1)]).flatten

/-- Pulses that rise on every second tick after the sync phase are shown, when T_SYNC and T_PWMAX are 1; with `hit` each is still high
a tick later. -/
theorem pulses_shown {s : State} {n t3 : Nat} {hit : Bool} (hb : s.latch.tSync.toNat = 1) (hw : s.latch.tPwmax.toNat = 1)
    (hz : hit = true → s.latch.toz = true)
    (h : ∀ j, j < n → s.ext .pw (2 * j + t3 + 1) = true ∧ s.ext .pw (2 * j + t3 + 2) = hit) :
    ∀ j, j < n → PulseShown s.latch (s.ext .pw) (bitStartTick t3 (fun j => 2 * j + t3 + 2) j) (2 * j + t3 + 1) (2 * j + t3 + 2) hit ∧
      (hit = true → s.latch.toz = true) := by
  intro j hj
  have hs : bitStartTick t3 (fun j => 2 * j + t3 + 2) j = 2 * j + t3 + 1 := by
    cases j with
    | zero => exact (if_pos rfl).trans (by omega)
    | succ k => exact (if_neg (Nat.succ_ne_zero k)).trans (show 2 * (k + 1 - 1) + t3 + 2 + 1 = _ by omega)
  obtain ⟨h1, h2⟩ := h j hj
  rw [hs]
  refine ⟨⟨firstAt_self h1, by omega, ?_⟩, hz⟩
  cases hit with
  | false => exact ⟨firstAt_self h2, by omega⟩
  | true =>
    refine ⟨by omega, fun u hu hut => ?_⟩
    obtain rfl | rfl : u = 2 * j + t3 + 1 ∨ u = 2 * j + t3 + 2 := by omega
    · exact h1
    · exact h2

/-- PwFrameCapturesFortyBits with START = 0: pulse `j` on tick `2j + 3`. -/
theorem witness_PwFrameCapturesFortyBits :
    FrameReady (issued 0x12#32 (shortPulses 40) least) 0#4 ∧
    FrameShown (issued 0x12#32 (shortPulses 40) least) 0#4 40 2 (fun j => 2 * j + 2 + 1) (fun j => 2 * j + 2 + 2)
      (fun _ => false) :=
  ⟨⟨by decide, rfl, by decide, by decide, fun h => absurd h (by decide)⟩,
    ⟨0, 1, firstAt_self (by decide), by decide, firstAt_self (by decide), by decide, firstAt_self (by decide), by decide⟩,
    pulses_shown (by decide) (by decide) (fun h => by cases h) (by decide +kernel)⟩

/-- PwFrameCapturesFortyBits with START = 1 (T_START = 1, T_REL = 0): the sync phase begins on tick 1. -/
theorem witness_PwFrameCapturesFortyBits_start :
    FrameReady (issued 0x112#32 ((true, 1) :: shortPulses 40) least) 1#4 ∧
    FrameShown (issued 0x112#32 ((true, 1) :: shortPulses 40) least) 1#4 40 3 (fun j => 2 * j + 3 + 1) (fun j => 2 * j + 3 + 2)
      (fun _ => false) :=
  ⟨⟨by decide, rfl, by decide, by decide, fun _ => by decide⟩,
    ⟨1, 2, firstAt_self (by decide), by decide, firstAt_self (by decide), by decide, firstAt_self (by decide), by decide⟩,
    pulses_shown (by decide) (by decide) (fun h => by cases h) (by decide +kernel)⟩

/-- PwFrameCapturesFortyBits with TOZ = 1 and every pulse at the bound: the line stays high for 80 ticks. -/
theorem witness_PwFrameCapturesFortyBits_overflow :
    FrameReady (issued 0x12#32 [(false, 1), (true, 1), (false, 1), (true, 80)] { least with toz := true }) 0#4 ∧
    FrameShown (issued 0x12#32 [(false, 1), (true, 1), (false, 1), (true, 80)] { least with toz := true }) 0#4 40 2
      (fun j => 2 * j + 2 + 1) (fun j => 2 * j + 2 + 2) (fun _ => true) :=
  ⟨⟨by decide, rfl, by decide, by decide, fun h => absurd h (by decide)⟩,
    ⟨0, 1, firstAt_self (by decide), by decide, firstAt_self (by decide), by decide, firstAt_self (by decide), by decide⟩,
    pulses_shown (by decide) (by decide) (fun _ => rfl) (by decide +kernel)⟩

/-- PW_FRAME 0 on thirty-nine short pulses, a low tick and then more of the line. -/
def lastPulse (more : Wave) : State := issued 0x12#32 (shortPulses 38 ++ (false, 1) :: more) least

/-- PwFrameFailsWhole at its last bit, `n = 39`: the fortieth pulse missing, and the fortieth pulse at the bound with TOZ = 0. -/
theorem witness_PwFrameFailsWhole_last :
    (FrameReady (lastPulse [(false, 1)]) 0#4 ∧
      FrameShown (lastPulse [(false, 1)]) 0#4 39 2 (fun j => 2 * j + 2 + 1) (fun j => 2 * j + 2 + 2) (fun _ => false) ∧
      bitStartTick 2 (fun j => 2 * j + 2 + 2) 39 = 81 ∧ Holds ((lastPulse [(false, 1)]).ext .pw) false 81 82) ∧
    (FrameReady (lastPulse [(true, 2)]) 0#4 ∧
      FrameShown (lastPulse [(true, 2)]) 0#4 39 2 (fun j => 2 * j + 2 + 1) (fun j => 2 * j + 2 + 2) (fun _ => false) ∧
      (lastPulse [(true, 2)]).latch.toz = false ∧
      PulseShown (lastPulse [(true, 2)]).latch ((lastPulse [(true, 2)]).ext .pw) 81 81 82 true) :=
  ⟨⟨⟨by decide, rfl, by decide, by decide, fun h => absurd h (by decide)⟩,
      ⟨⟨0, 1, firstAt_self (by decide), by decide, firstAt_self (by decide), by decide, firstAt_self (by decide), by decide⟩,
        pulses_shown (by decide) (by decide) (fun h => by cases h) (by decide +kernel)⟩,
      by decide, holds_one (by decide +kernel)⟩,
    ⟨⟨by decide, rfl, by decide, by decide, fun h => absurd h (by decide)⟩,
      ⟨⟨0, 1, firstAt_self (by decide), by decide, firstAt_self (by decide), by decide, firstAt_self (by decide), by decide⟩,
        pulses_shown (by decide) (by decide) (fun h => by cases h) (by decide +kernel)⟩,
      rfl, firstAt_self (by decide +kernel), by decide, by decide,
      fun u hu hut => by interval_cases u <;> decide +kernel⟩⟩

/-- PwFrameFailsWhole, the encoding: both SEL bits at their boundary and the least and the greatest reserved bit. -/
theorem witness_PwFrameFailsWhole_encoding :
    cmdOp 0x112#32 = 0x12#8 ∧ cmdOp 0x212#32 = 0x12#8 ∧ cmdOp 0x1012#32 = 0x12#8 ∧ cmdOp 0x80000012#32 = 0x12#8 := by decide

/-- PwFrameFailsWhole: ILLEGAL at the least SEL, BADCFG, a ready frame with START = 1 whose sync begins at tick 1, the first wait
expired, a pulse missing right after the sync phase, and a pulse that hits the bound there with TOZ = 0. -/
theorem witness_PwFrameFailsWhole :
    1 < (2#4).toNat ∧ ((1#4).toNat ≤ 1 ∧ (issued 0x112#32 [] { least with tStart := 0#16 }).latch.tStart.toNat = 0) ∧
    (FrameReady (issued 0x112#32 [(true, 2)] least) 1#4 ∧
      Holds ((issued 0x112#32 [(true, 2)] least).ext .pw) true (frameSyncTick (issued 0x112#32 [(true, 2)] least).latch 1#4) 2) ∧
    (FrameReady (issued 0x12#32 [(false, 1), (true, 1), (false, 2)] least) 0#4 ∧
      FrameShown (issued 0x12#32 [(false, 1), (true, 1), (false, 2)] least) 0#4 0 2 (fun _ => 0) (fun _ => 0) (fun _ => false) ∧
      Holds ((issued 0x12#32 [(false, 1), (true, 1), (false, 2)] least).ext .pw) false 3 4) ∧
    (FrameReady (issued 0x12#32 [(false, 1), (true, 1), (false, 1), (true, 2)] least) 0#4 ∧
      FrameShown (issued 0x12#32 [(false, 1), (true, 1), (false, 1), (true, 2)] least) 0#4 0 2 (fun _ => 3) (fun _ => 4)
        (fun _ => false) ∧
      (issued 0x12#32 [(false, 1), (true, 1), (false, 1), (true, 2)] least).latch.toz = false ∧
      PulseShown (issued 0x12#32 [(false, 1), (true, 1), (false, 1), (true, 2)] least).latch
        ((issued 0x12#32 [(false, 1), (true, 1), (false, 1), (true, 2)] least).ext .pw) 3 3 4 true) := by
  refine ⟨by decide, by decide, ⟨⟨by decide, rfl, by decide, by decide, fun _ => by decide⟩, ?_⟩,
    ⟨⟨by decide, rfl, by decide, by decide, fun h => absurd h (by decide)⟩, ⟨⟨0, 1, firstAt_self (by decide), by decide,
      firstAt_self (by decide), by decide, firstAt_self (by decide), by decide⟩, fun j hj => absurd hj (by omega)⟩,
      holds_one (by decide)⟩,
    ⟨⟨by decide, rfl, by decide, by decide, fun h => absurd h (by decide)⟩, ⟨⟨0, 1, firstAt_self (by decide), by decide,
      firstAt_self (by decide), by decide, firstAt_self (by decide), by decide⟩, fun j hj => absurd hj (by omega)⟩,
      by decide, firstAt_self (by decide), by decide, ?_⟩⟩
  · have h : frameSyncTick (issued 0x112#32 [(true, 2)] least).latch 1#4 = 1 := by decide
    rw [h]
    exact holds_one (by decide)
  · exact ⟨by decide, fun u hu hut => by interval_cases u <;> decide⟩

/-- PwFrameFailsWhole, the second and the third sync wait expired. -/
theorem witness_PwFrameFailsWhole_sync :
    (FirstAt ((issued 0x12#32 [(false, 2)] least).ext .pw) false 0 0 ∧
      Holds ((issued 0x12#32 [(false, 2)] least).ext .pw) false 1 2) ∧
    (FirstAt ((issued 0x12#32 [(false, 1), (true, 2)] least).ext .pw) false 0 0 ∧
      FirstAt ((issued 0x12#32 [(false, 1), (true, 2)] least).ext .pw) true 1 1 ∧
      Holds ((issued 0x12#32 [(false, 1), (true, 2)] least).ext .pw) true 2 3) ∧
    frameSyncTick (issued 0x12#32 [(false, 2)] least).latch 0#4 = 0 :=
  ⟨⟨firstAt_self (by decide), holds_one (by decide)⟩, ⟨firstAt_self (by decide), firstAt_self (by decide), holds_one (by decide)⟩,
    by decide⟩

theorem witness_PwDurationsAreBounded :
    ticksOf .pwSync (issued 0x10#32 [(false, 1), (true, 1), (false, 1)] least) = some 3 ∧
    ticksOf .pwBit (issued 0x11#32 [(true, 2)] least) = some 2 ∧
    ticksOf (.pwFrame 0#4) (issued 0x12#32 (shortPulses 40) least) = some 83 ∧
    ticksOf (.pwFrame 1#4) (issued 0x112#32 [(true, 2)] least) = some 2 := by decide +kernel

/-- The BCD statements: legal and illegal SEL, the ends of a range, a digit above 9, and the clock-halt bit. -/
theorem witness_Bcd :
    (cmdOp 0x720#32 = 0x20#8 ∧ cmdOp 0x820#32 = 0x20#8 ∧ cmdOp 0x721#32 = 0x21#8 ∧ cmdOp 0x821#32 = 0x21#8) ∧
    7 < (8#4).toNat ∧ (7#4).toNat ≤ 7 ∧
    (InBcdRange 7 2000 ∧ InBcdRange 7 2099 ∧ ¬ InBcdRange 7 1999 ∧ ¬ InBcdRange 7 2100 ∧ InBcdRange 6 1 ∧ ¬ InBcdRange 6 0) ∧
    outcome (.bcdEnc 1#4) (issued 0x121#32 [] { State.reset with arg0 := 59#32 }) = some (0x59#32, .ok, false) ∧
    outcome (.bcdDec 1#4) (issued 0x120#32 [] { State.reset with arg0 := 0xD9#32 }) = some (59#32, .ok, false) := by
  unfold InBcdRange
  decide

/-- BcdRoundTrip: what the first command leaves is what the second has latched. -/
theorem witness_BcdRoundTrip :
    (∃ t, exec (.bcdEnc 7#4) (issued 0x721#32 [] { State.reset with arg0 := 2099#32 }) = .next t ∧
      (issued 0x720#32 [] { State.reset with arg0 := 0x99#32 }).latch.arg0 = t.result) ∧
    (∃ t, exec (.bcdDec 1#4) (issued 0x120#32 [] { State.reset with arg0 := 0xD9#32 }) = .next t ∧ t.err = .ok ∧
      (issued 0x121#32 [] { State.reset with arg0 := 59#32 }).latch.arg0 = t.result) :=
  ⟨⟨_, rfl, by decide⟩, ⟨_, rfl, by decide, by decide⟩⟩

/-- DOW: both ends of each operand's range and the operands next to them, and the vectors' operands. -/
theorem witness_Dow :
    outcome .dow (issued 0x30#32 [] { State.reset with arg0 := 1#32, arg1 := 0x0101#32 }) = some (1#32, .ok, false) ∧
    outcome .dow (issued 0x30#32 [] { State.reset with arg0 := 9999#32, arg1 := 0x1F0C#32 }) = some (5#32, .ok, false) ∧
    outcome .dow (issued 0x30#32 [] { State.reset with arg0 := 10000#32, arg1 := 0x0101#32 }) = some (0#32, .invalid, false) ∧
    outcome .dow (issued 0x30#32 [] { State.reset with arg0 := 1#32, arg1 := 0x010D#32 }) = some (0#32, .invalid, false) ∧
    outcome .dow (issued 0x30#32 [] { State.reset with arg0 := 1#32, arg1 := 0x2001#32 }) = some (0#32, .invalid, false) ∧
    (issued 0x30#32 [] { State.reset with arg0 := 2000#32, arg1 := 0x0103#32 }).latch.arg0 = 2000#32 ∧
    cmdOp 0x30#32 = 0x30#8 ∧ cmdOp 0x130#32 = 0x30#8 := by decide

theorem witness_Checksums : cmdOp 0xF40#32 = 0x40#8 ∧ cmdOp 0x1040#32 = 0x40#8 ∧ cmdOp 0xF41#32 = 0x41#8 ∧
    cmdOp 0x1041#32 = 0x41#8 := by decide

/-- CrcResidueIsZero: the last bit of the frame. CrcDetectsSingleBitFlip: the check byte of the longest frame, and its first bit. -/
theorem witness_CrcDetectsSingleBitFlip :
    (8 < 9 ∧ 7 < 8) ∧ 15 ≤ (15#4).toNat ∧
    (issued 0xF40#32 [] { State.reset with dbuf := (Vector.replicate 16 0#8).set 15 0x80#8 }).latch.dbuf =
      (issued 0xF40#32 [] State.reset).latch.dbuf.set 15 ((issued 0xF40#32 [] State.reset).latch.dbuf[15] ^^^ (1#8 <<< 7)) ∧
    outcome (.chkCrc8 15#4) (issued 0xF40#32 [] State.reset) = some (0#32, .ok, false) := by decide +kernel

/-- SumDetectsSingleBitFlip: the last covered byte of the longest frame. -/
theorem witness_SumDetectsSingleBitFlip :
    14 < (15#4).toNat ∧
    (issued 0xF41#32 [] { State.reset with dbuf := (Vector.replicate 16 0#8).set 14 0x80#8 }).latch.dbuf =
      (issued 0xF41#32 [] State.reset).latch.dbuf.set 14 ((issued 0xF41#32 [] State.reset).latch.dbuf[14] ^^^ (1#8 <<< 7)) ∧
    outcome (.chkSum8 15#4) (issued 0xF41#32 [] State.reset) = some (0#32, .ok, false) := by decide +kernel

theorem witness_IrqIsEnableAndDone :
    (running 0#32 0 State.reset).seq = .run ∧ (running 0#32 0 State.reset).wait = 0 ∧ Runs (running 0#32 0 State.reset) :=
  ⟨rfl, rfl, rfl, rfl⟩

theorem witness_IrqClearedOrMasked :
    (((running 0#32 1 (facing (writeCycle .status 2#32) State.reset)).seq = .run →
        (running 0#32 1 (facing (writeCycle .status 2#32) State.reset)).wait ≠ 0) ∧
      Writes (running 0#32 1 (facing (writeCycle .status 2#32) State.reset)) .status ∧
      (running 0#32 1 (facing (writeCycle .status 2#32) State.reset)).cycle.wdata.getLsbD 1 = true) ∧
    ((facing (writeCycle .cmd 0#32) State.reset).seq = .idle ∧ Writes (facing (writeCycle .cmd 0#32) State.reset) .cmd) ∧
    (Writes (facing (writeCycle .ctrl 2#32) State.reset) .ctrl ∧
      (facing (writeCycle .ctrl 2#32) State.reset).cycle.wdata.getLsbD 0 = false) :=
  ⟨⟨fun _ => by decide, ⟨rfl, rfl, rfl, rfl⟩, rfl⟩, ⟨rfl, rfl, rfl, rfl, rfl⟩, ⟨rfl, rfl, rfl, rfl⟩, rfl⟩

/-- SetWinsOverClear: PW_BIT on a line that stays high hits its bound; NOP does not; and a CMD write on the completion edge. -/
theorem witness_SetWinsOverClear :
    (Writes (issued 0x11#32 [(true, 2)] (facing (writeCycle .status 6#32) least)) .status ∧
      (issued 0x11#32 [(true, 2)] (facing (writeCycle .status 6#32) least)).wait = 0 ∧
      (issued 0x11#32 [(true, 2)] (facing (writeCycle .status 6#32) least)).latchedReport.ovfSeen = true) ∧
    (Writes (issued 0#32 [] (facing (writeCycle .status 6#32) least)) .status ∧
      (issued 0#32 [] (facing (writeCycle .status 6#32) least)).latchedReport.ovfSeen = false) ∧
    ((issued 0#32 [] (facing (writeCycle .cmd 1#32) least)).seq = .run ∧
      Writes (issued 0#32 [] (facing (writeCycle .cmd 1#32) least)) .cmd) :=
  ⟨⟨⟨rfl, rfl, rfl, rfl⟩, rfl, by decide⟩, ⟨⟨rfl, rfl, rfl, rfl⟩, by decide⟩, rfl, rfl, rfl, rfl, rfl⟩

theorem witness_ResetEdgeAborts :
    ((facing ⟨false, false, true, 0, 3#32, true, true⟩ State.reset).cycle.rstN = false ∧
      ((facing ⟨false, false, true, 0, 3#32, true, true⟩ State.reset).cycle.rd &&
        (facing ⟨false, false, true, 0, 3#32, true, true⟩ State.reset).cycle.wr) = false) ∧
    ((running 1#32 1 State.reset).seq = .run ∧ (running 1#32 1 State.reset).wait ≠ 0 ∧ Runs (running 1#32 1 State.reset)) :=
  ⟨⟨rfl, rfl⟩, rfl, by decide, rfl, rfl⟩

/-- A running NOP, one edge from its completion, has the sequencer's invariant, and its step answers. -/
theorem witness_StepKeepsSequencerInv : SequencerInv (running 0#32 0 State.reset) ∧ ∃ t, step (running 0#32 0 State.reset) = .next t :=
  ⟨⟨clkPerUs_pos, rfl, rfl, fun h => (by cases h), fun _ => ⟨rfl, rfl⟩, fun _ => rfl, fun _ => rfl, fun _ h => (by cases h),
    fun _ _ x => by cases x <;> rfl⟩, _, step_completion ⟨rfl, rfl⟩ rfl rfl⟩

theorem witness_StepKeepsCountdownInv : CountdownInv (running 0#32 0 State.reset) ∧ ∃ t, step (running 0#32 0 State.reset) = .next t :=
  ⟨⟨clkPerUs_pos, fun _ _ => ⟨by decide, Nat.succ_pos _⟩, fun _ _ h => (by cases h), fun _ h => (by cases h)⟩, _,
    step_completion ⟨rfl, rfl⟩ rfl rfl⟩

theorem witness_RunningCommandEndsOnTime :
    (running 0#32 1 (facing (writeCycle .cmd 1#32) State.reset)).seq = .run ∧
    ∀ c ∈ (running 0#32 1 (facing (writeCycle .cmd 1#32) State.reset)).port.take 2, c.rstN = true ∧ (c.rd && c.wr) = false := by
  decide

/-- CommandReadsOnlyItsLatch: two states that differ in the registers, the flags and the clock. -/
theorem witness_CommandReadsOnlyItsLatch :
    (issued 3#32 [] least).latch = { issued 3#32 [] least with arg0 := 5#32, ie := true, clock := 9 }.latch ∧
    (issued 3#32 [] least).owDrv = { issued 3#32 [] least with arg0 := 5#32, ie := true, clock := 9 }.owDrv ∧
    (issued 3#32 [] least).pwDrv = { issued 3#32 [] least with arg0 := 5#32, ie := true, clock := 9 }.pwDrv ∧
    (∀ x t, (issued 3#32 [] least).ext x t = { issued 3#32 [] least with arg0 := 5#32, ie := true, clock := 9 }.ext x t) ∧
    (issued 3#32 [] least).result = { issued 3#32 [] least with arg0 := 5#32, ie := true, clock := 9 }.result ∧
    (issued 3#32 [] least).dbuf = { issued 3#32 [] least with arg0 := 5#32, ie := true, clock := 9 }.dbuf ∧
    (issued 3#32 [] least).ovf = { issued 3#32 [] least with arg0 := 5#32, ie := true, clock := 9 }.ovf :=
  ⟨rfl, rfl, rfl, fun _ _ => rfl, rfl, rfl, rfl⟩

/-- LevelsPastTheEndDoNotMatter: OW_RDBIT of two ticks, and levels that differ on tick 2. -/
theorem witness_LevelsPastTheEndDoNotMatter :
    (issued 3#32 [(true, 3)] least).latch = (issued 3#32 [(true, 2), (false, 1)] least).latch ∧
    ticksOf .owRdbit (issued 3#32 [(true, 3)] least) = some 2 ∧
    (∀ x t, t < 2 → (issued 3#32 [(true, 3)] least).ext x t = (issued 3#32 [(true, 2), (false, 1)] least).ext x t) ∧
    (issued 3#32 [(true, 3)] least).ext .ow 2 ≠ (issued 3#32 [(true, 2), (false, 1)] least).ext .ow 2 :=
  ⟨rfl, by decide, fun x t ht => by interval_cases t <;> cases x <;> decide, by decide⟩

theorem witness_ComputeCommandsIgnoreLines : lineOf (.chkSum8 15#4) = none ∧
    commandDrive .owReset (State.reset.latchOf 1#32) .ow 479 = true ∧
    commandDrive (.pwFrame 1#4) (State.reset.latchOf 0x112#32) .pw 19999 = true := by decide

/-- WaveformAdvancesByTick: each of its phases. -/
theorem witness_WaveformAdvancesByTick (p : Phase) :
    { running 1#32 1 State.reset with phase := p }.seq = .run ∧ { running 1#32 1 State.reset with phase := p }.wait ≠ 0 ∧
    Runs { running 1#32 1 State.reset with phase := p } ∧
    { running 1#32 1 State.reset with phase := p }.prescaler < Config.clkPerUs ∧
    { running 1#32 1 State.reset with phase := p }.phase = p :=
  ⟨rfl, show (1 : Nat) ≠ 0 by decide, ⟨rfl, rfl⟩, clkPerUs_pos, rfl⟩

/-- DriveChangesOnlyAtBoundaries: the host drives OW by hand. -/
theorem witness_DriveChangesOnlyAtBoundaries :
    SequencerInv (facing (writeCycle .line 1#32) State.reset) ∧ CountdownInv (facing (writeCycle .line 1#32) State.reset) ∧
    Runs (facing (writeCycle .line 1#32) State.reset) ∧
    ∃ t, step (facing (writeCycle .line 1#32) State.reset) = .next t ∧
      t.driveLow .ow ≠ (facing (writeCycle .line 1#32) State.reset).driveLow .ow :=
  ⟨⟨clkPerUs_pos, rfl, rfl, fun _ x => (by cases x <;> rfl), fun h => (by cases h), fun h => (by cases h), fun h => (by cases h),
      fun h => (by cases h), fun h => (by cases h)⟩,
    ⟨clkPerUs_pos, fun h => (by cases h), fun h => (by cases h), fun h => (by cases h)⟩, ⟨rfl, rfl⟩, _,
    step_idle ⟨rfl, rfl⟩ rfl, by decide⟩

/-- LineShowsSynchronisedPins: a reserved bit. -/
theorem witness_LineShowsSynchronisedPins : 2 ≤ 31 ∧ 31 ≠ 8 ∧ 31 ≠ 9 ∧ 2 ≤ 2 ∧ 2 ≠ 8 ∧ 2 ≠ 9 := by decide

/-- ChecksComeInOrder: an illegal SEL, a driven line, a timing at the edge of legal, a legal one, and a compute command. -/
theorem witness_ChecksComeInOrder :
    ¬ (Instr.bcdEnc 8#4).WellFormed ∧ (Instr.pwBit.WellFormed ∧ lineOf .pwBit = some .pw) ∧
    { least with pwDrv := true }.manualDrive .pw = true ∧ least.manualDrive .pw = false ∧
    TimingLegal (least.latchOf 0x11#32) .pwBit ∧ ¬ TimingLegal ({ least with tim3 := 0x00010000#32 }.latchOf 0x11#32) .pwBit ∧
    (Instr.dow.WellFormed ∧ lineOf .dow = none) := by
  unfold TimingLegal
  decide

/-- ErrorCodesByCommand: each code is reported by a command the table names. -/
theorem witness_ErrorCodesByCommand :
    outcome .pwSync (issued 0x10#32 [(true, 1)] least) = some (0#32, .nodev, false) ∧
    outcome (.chkSum8 0#4) (issued 0x41#32 [] { State.reset with dbuf := scratchpad 0#8 }) = some (0#32, .corrupt, false) ∧
    outcome .pwBit (issued 0x11#32 [(false, 1)] least) = some (0#32, .timeout, false) ∧
    outcome .dow (issued 0x30#32 [] State.reset) = some (0#32, .invalid, false) ∧
    outcome .owReset (issued 1#32 [] { State.reset with owDrv := true }) = some (0#32, .badcfg, false) ∧
    outcome (.bcdDec 8#4) (issued 0x820#32 [] State.reset) = some (0#32, .illegal, false) := by decide

/-- HostAccessIsWordAligned: an offset and a width next to the legal ones, and the last legal offset. -/
theorem witness_HostAccessIsWordAligned : (1 % 4 ≠ 0 ∧ 2 ≠ 4) ∧ 252 % 4 = 0 ∧ 252 < 256 := by decide

/-- WindowOffsetsNameRegisters: the last register, both reserved ranges at their ends, and the first offset outside. -/
theorem witness_WindowOffsetsNameRegisters : 4 * (0x10#6).toNat = 0x40 ∧ 4 * (0x07#6).toNat = 0x1C ∧ 4 * (0x11#6).toNat = 0x44 ∧
    4 * (0x3F#6).toNat = 0xFC ∧ 256 ≤ 256 := by decide

/-- HostWritesWhileIdle: every register. -/
theorem witness_HostWritesWhileIdle (r : Reg) :
    (facing (writeCycle r 0xFFFFFFFF#32) State.reset).seq = .idle ∧ Writes (facing (writeCycle r 0xFFFFFFFF#32) State.reset) r ∧
    (facing (writeCycle r 0xFFFFFFFF#32) State.reset).cycle.wdata = 0xFFFFFFFF#32 := by
  refine ⟨rfl, ⟨rfl, rfl, rfl, ?_⟩, rfl⟩
  cases r with
  | dbuf k =>
    revert k
    decide
  | _ => rfl

end Sys2Proof.Tests
end

section
/-! Host accesses by byte offset (20_memory.md R85, R86): when one is refused, and the port cycle it becomes. -/

namespace Sys2Proof.Machine

theorem memRead_eq_none_iff (clock off width : Nat) :
    memRead clock off width = none ↔ ¬ (off % 4 = 0 ∧ off < 256 ∧ width = 4) := by
  simp [memRead]

theorem memWrite_eq_none_iff (clock off width : Nat) (v : Word) :
    memWrite clock off width v = none ↔ ¬ (off % 4 = 0 ∧ off < 256 ∧ width = 4) := by
  simp [memWrite]

theorem memRead_of_aligned (clock : Nat) {off : Nat} (hAligned : off % 4 = 0) (hWindow : off < 256) :
    memRead clock off 4 = some { PortCycle.quiet clock with rd := true, addr := BitVec.ofNat 6 (off / 4) } :=
  if_pos ⟨hAligned, hWindow, rfl⟩

theorem memWrite_of_aligned (clock : Nat) {off : Nat} (v : Word) (hAligned : off % 4 = 0) (hWindow : off < 256) :
    memWrite clock off 4 v = some { PortCycle.quiet clock with wr := true, addr := BitVec.ofNat 6 (off / 4), wdata := v } :=
  if_pos ⟨hAligned, hWindow, rfl⟩

/-- The six address bits name every word of the 256-byte window, so no aligned offset wraps (20_memory.md R80). -/
theorem four_mul_toNat_wordOffset {off : Nat} (hAligned : off % 4 = 0) (hWindow : off < 256) :
    4 * (BitVec.ofNat 6 (off / 4)).toNat = off := by
  have hWord : off / 4 < 2 ^ 6 := by omega
  rw [BitVec.toNat_ofNat, Nat.mod_eq_of_lt hWord]
  omega

/-- Settles O57: the refusals are the failing guard of `memRead` and `memWrite`; an access that passes it is one word access. -/
theorem hostAccessIsWordAligned : Obligations.HostAccessIsWordAligned := by
  refine ⟨fun clock off width v hBad => ?refused, fun clock off v hAligned hWindow => ?goesOut⟩
  case refused =>
    have hGuard : ¬ (off % 4 = 0 ∧ off < 256 ∧ width = 4) := fun ⟨hAligned, _, hWidth⟩ =>
      hBad.elim (· hAligned) (· hWidth)
    exact ⟨(memRead_eq_none_iff clock off width).mpr hGuard, (memWrite_eq_none_iff clock off width v).mpr hGuard⟩
  case goesOut =>
    have hAddr := four_mul_toNat_wordOffset hAligned hWindow
    exact ⟨_, _, memRead_of_aligned clock hAligned hWindow, rfl, rfl, hAddr,
      memWrite_of_aligned clock v hAligned hWindow, rfl, rfl, hAddr, rfl⟩

end Sys2Proof.Machine
end

section
/-! Reserved command words (30_encoding.md R123, R125): which words the decoder refuses, what accept leaves as it was, and how a
running reserved word ends. -/

namespace Sys2Proof

theorem decodePlain_error_iff (sel : BitVec 4) (i : Instr) : (∃ e, decodePlain sel i = .error e) ↔ sel.toNat ≠ 0 := by
  have hZero : sel = 0#4 ↔ sel.toNat = 0 := BitVec.toNat_inj.symm
  unfold decodePlain
  split <;> simp_all

theorem decodeSel_error_iff (i : Instr) : (∃ e, decodeSel i = .error e) ↔ i.wellFormed = false := by
  unfold decodeSel
  split <;> simp_all

namespace Machine

theorem reservedWord_of_rsv_ne {w : Word} (h : cmdRsv w ≠ 0#20) : ReservedWord w := .inr (.inl h)

/-- With RSV 0, the OP ranges and SEL values of R125 are the branches of the opcode map that refuse (30_encoding.md R122, R124):
SEL not 0 for a plain command, SEL out of its range for PW_FRAME and the BCD commands, no SEL for the commands that take all of
them, and every OP without a row. -/
theorem reservedWord_cmdWord_iff (op : BitVec 8) (sel : BitVec 4) :
    ReservedWord (cmdWord op sel 0#20) ↔ ∃ e, decodeOp op sel = .error e := by
  have hOp := op.isLt
  simp only [ReservedWord, cmdOp_cmdWord, cmdSel_cmdWord, cmdRsv_cmdWord, ne_eq, not_true_eq_false, false_or]
  unfold decodeOp
  split
  case h_1 | h_2 | h_3 | h_4 | h_5 | h_7 | h_8 | h_12 =>
    rw [decodePlain_error_iff]
    omega
  case h_9 | h_10 | h_11 =>
    simp only [decodeSel_error_iff, Instr.wellFormed, decide_eq_false_iff_not]
    omega
  case h_6 | h_13 | h_14 =>
    simp only [decodeSel_error_iff, Instr.wellFormed, reduceCtorEq, iff_false]
    omega
  case h_15 =>
    simp only [imp_false, Except.error.injEq, exists_eq', iff_true] at *
    omega

/-- The words R125 lists are exactly those the decoder refuses. -/
theorem reservedWord_iff_decode_error (w : Word) : ReservedWord w ↔ ∃ e, decode w = .error e := by
  obtain ⟨op, sel, rsv, rfl⟩ := word_split w
  by_cases hRsv : rsv = 0#20
  · subst hRsv
    rw [reservedWord_cmdWord_iff, decode_cmdWord, if_pos rfl]
  · have hReserved : ReservedWord (cmdWord op sel rsv) := reservedWord_of_rsv_ne (by rwa [cmdRsv_cmdWord])
    rw [decode_cmdWord, if_neg hRsv]
    exact ⟨fun _ => ⟨_, rfl⟩, fun _ => hReserved⟩

theorem KeptByAccept.trans {a b c : State} (h : KeptByAccept a b) (h' : KeptByAccept b c) : KeptByAccept a c := by
  obtain ⟨hReg, hOw, hPw, hOvf, hWbusy, hDrive⟩ := h
  obtain ⟨hReg', hOw', hPw', hOvf', hWbusy', hDrive'⟩ := h'
  exact ⟨fun r hCmd hStatus hLine => (hReg' r hCmd hStatus hLine).trans (hReg r hCmd hStatus hLine), hOw'.trans hOw,
    hPw'.trans hPw, hOvf'.trans hOvf, hWbusy'.trans hWbusy, fun x => (hDrive' x).trans (hDrive x)⟩

theorem keptByAccept_clockEdge (c : PortCycle) (s : State) : KeptByAccept s (s.clockEdge c) :=
  ⟨fun r _ _ hLine => s.readReg_clockEdge c r hLine, rfl, rfl, rfl, rfl, fun x => by cases x <;> rfl⟩

theorem keptByAccept_accept (w : Word) (s : State) : KeptByAccept s (s.accept w) := by
  refine ⟨fun r hCmd hStatus hLine => ?_, rfl, rfl, rfl, rfl, fun x => by cases x <;> rfl⟩
  cases r with
  | cmd => exact absurd rfl hCmd
  | status => exact absurd rfl hStatus
  | line => exact absurd rfl hLine
  | _ => rfl

/-- A CMD write while no command runs accepts the word, whatever it is (40_common.md R151). -/
theorem step_accepts {s : State} (hIdle : s.seq = .idle) (hWrite : Writes s .cmd) :
    step s = .next ((s.clockEdge s.cycle).accept s.cycle.wdata) := by
  rw [step_idle hWrite.runs hIdle, hostEdge_writes hWrite, (State.busy_eq_false s).2 hIdle]
  rfl

theorem latchedReport_of_reserved {s : State} (h : ReservedWord s.latch.word) : s.latchedReport = .raise .illegal := by
  obtain ⟨e, hDecode⟩ := (reservedWord_iff_decode_error _).1 h
  simp only [State.latchedReport, hDecode]

/-- A reserved word ends with ILLEGAL and nothing else: its report raises ILLEGAL, and the host's part of the edge keeps RESULT and
DBUF of a running command. -/
theorem endsIllegal_of_reserved {w : Word} (h : ReservedWord w) : EndsIllegal w := by
  rintro s hRun hWait hRuns rfl
  have hKept := sameRun_hostEdge hRun s.cycle
  rw [step_completion hRuns hRun hWait, latchedReport_of_reserved h, State.finish_raise, hKept.result, hKept.dbuf]

/-- Settles O4: R125's list against the decoder, the frame of accept, and the completion of a reserved word. -/
theorem reservedEncodingsEndIllegal : Obligations.ReservedEncodingsEndIllegal := by
  refine ⟨reservedWord_iff_decode_error, fun s hIdle hWrite _ => ?accepted, fun s hRun hWait hRuns hReserved => ?completed, rfl⟩
  case accepted =>
    exact ⟨_, step_accepts hIdle hWrite, rfl, rfl, rfl, rfl,
      (keptByAccept_clockEdge s.cycle s).trans (keptByAccept_accept s.cycle.wdata _)⟩
  case completed => exact endsIllegal_of_reserved hReserved s hRun hWait hRuns rfl

end Machine
end Sys2Proof
end

section
/-! Completion of a command: a code that commits nothing (40_common.md R155), the STATUS word of NOP's accept and completion (R160),
and the line a command uses (R163). -/

namespace Sys2Proof.Machine

theorem ErrCode.commits_eq_false {code : ErrCode} (hOk : code ≠ .ok) (hCorrupt : code ≠ .corrupt) : code.commits = false := by
  cases code with
  | ok => exact absurd rfl hOk
  | corrupt => exact absurd rfl hCorrupt
  | _ => rfl

theorem State.finish_of_not_commits {r : Report} (s : State) (h : r.code.commits = false) :
    s.finish r = s.completedWith r.code r.ovfSeen s.result s.dbuf := by
  simp [State.finish_eq, Report.resultAfter, Report.dbufAfter, h]

theorem State.finish_err (r : Report) (s : State) : (s.finish r).err = r.code := by
  rw [State.finish_eq]
  rfl

/-- Settles O14: `exec` is the completion with the command's report, and of the codes only OK and CORRUPT commit. -/
theorem failedCommandCommitsNothing : Obligations.FailedCommandCommitsNothing := by
  intro i s
  refine ⟨_, exec_eq i s, fun hOk hCorrupt => ⟨(commandReport i s).ovfSeen, ?_⟩⟩
  rw [State.finish_err] at hOk hCorrupt ⊢
  exact s.finish_of_not_commits (ErrCode.commits_eq_false hOk hCorrupt)

/-- STATUS with OVF, WBUSY and ERR at 0. -/
def plainStatus (done busy : Bool) : Word := 0#30 ++ BitVec.ofBool done ++ BitVec.ofBool busy

theorem ErrCode.eq_ok_of_code_bits {code : ErrCode} (h0 : code.code.getLsbD 0 = false) (h1 : code.code.getLsbD 1 = false)
    (h2 : code.code.getLsbD 2 = false) : code = .ok := by
  revert h0 h1 h2
  cases code <;> decide

/-- The fields of STATUS (10_state.md R33), read off a word that shows no other flag than DONE and BUSY. -/
theorem State.statusWord_eq_plainStatus_iff (s : State) (done busy : Bool) :
    s.statusWord = plainStatus done busy ↔
      s.busy = busy ∧ s.done = done ∧ s.ovf = false ∧ s.wbusy = false ∧ s.err = .ok := by
  constructor
  · intro h
    have hBit (j : Nat) := (s.statusWord_getLsbD j).symm.trans (congrArg (·.getLsbD j) h)
    simp only [plainStatus, BitVec.getLsbD_append] at hBit
    exact ⟨by simpa using hBit 0, by simpa using hBit 1, by simpa using hBit 2, by simpa using hBit 3,
      ErrCode.eq_ok_of_code_bits (by simpa using hBit 8) (by simpa using hBit 9) (by simpa using hBit 10)⟩
  · rintro ⟨hBusy, hDone, hOvf, hWbusy, hErr⟩
    rw [State.statusWord, hBusy, hDone, hOvf, hWbusy, hErr]
    cases done <;> cases busy <;> rfl

/-- An accept leaves BUSY as the only flag where OVF and WBUSY were 0: it clears DONE and ERR (40_common.md R151). -/
theorem statusWord_accept {s : State} (w : Word) (hOvf : s.ovf = false) (hWbusy : s.wbusy = false) :
    (s.accept w).statusWord = plainStatus false true :=
  (State.statusWord_eq_plainStatus_iff _ _ _).2 ⟨rfl, rfl, hOvf, hWbusy, rfl⟩

@[simp] theorem latch_word_accept (w : Word) (s : State) : (s.accept w).latch.word = w := Latch.word_latchOf w s

/-- A completion with OK that saw no bound hit leaves DONE as the only flag, where no flag stood before (40_common.md R154). -/
theorem statusWord_completedWith_ok {s : State} (result : Word) (dbuf : Vector Byte 16) (hOvf : s.ovf = false)
    (hWbusy : s.wbusy = false) : (s.completedWith .ok false result dbuf).statusWord = plainStatus true false := by
  have hOvf' : (s.ovf || false) = false := by rw [hOvf, Bool.or_false]
  exact (State.statusWord_eq_plainStatus_iff _ _ _).2 ⟨rfl, rfl, hOvf', hWbusy, rfl⟩

/-- The words with the OP of a command that takes no SEL: one is the command, all others complete with ILLEGAL
(30_encoding.md R122, R123). -/
theorem endsIllegal_of_plain {op : BitVec 8} {i : Instr} (h : ∀ sel, decodeOp op sel = decodePlain sel i) {w : Word}
    (hw : cmdOp w = op) :
    (w = cmdWord op 0#4 0#20 ∧ decode w = .ok i) ∨ (w ≠ cmdWord op 0#4 0#20 ∧ EndsIllegal w) :=
  (decode_of_plain h w hw).imp_right fun ⟨hNe, hError⟩ =>
    ⟨hNe, endsIllegal_of_reserved ((reservedWord_iff_decode_error w).2 hError)⟩

theorem exec_nop (s : State) : exec .nop s = .next (s.completedWith .ok false s.result s.dbuf) := by
  rw [exec_eq]
  exact congrArg _ (s.finish_nothing .ok false none)

/-- Settles O16: the encoding by `endsIllegal_of_plain`, the empty report, and STATUS at the accept and at the completion. -/
theorem nopCompletes : Obligations.NopCompletes := by
  refine ⟨fun w hOp => endsIllegal_of_plain (fun _ => rfl) hOp, fun s => ⟨exec_nop s, rfl, fun _ _ _ => rfl⟩,
    fun s hStatus hWrite hData => ?accepted, fun s t hStatus hExec => ?completed⟩
  case accepted =>
    obtain ⟨hBusy, -, hOvf, hWbusy, -⟩ := (s.statusWord_eq_plainStatus_iff false false).1 hStatus
    refine ⟨_, step_accepts ((State.busy_eq_false s).1 hBusy) hWrite, statusWord_accept _ hOvf hWbusy, ?_⟩
    rw [latch_word_accept, hData]
    rfl
  case completed =>
    obtain ⟨-, -, hOvf, hWbusy, -⟩ := (s.statusWord_eq_plainStatus_iff false true).1 hStatus
    obtain rfl : s.completedWith .ok false s.result s.dbuf = t := Host.Outcome.next.inj ((exec_nop s).symm.trans hExec)
    exact statusWord_completedWith_ok _ _ hOvf hWbusy

/-- The run of a compute command reads the latched set and nothing else (40_common.md R162, R163). -/
theorem commandReport_compute_congr {i : Instr} {s s' : State} (h : lineOf i = none) (hLatch : s.latch = s'.latch) :
    commandReport i s = commandReport i s' := by
  cases i with
  | nop => rfl
  | bcdDec | bcdEnc => simp only [commandReport, bcdDecReport, bcdEncReport, hLatch]
  | dow => simp only [commandReport, dowReport, hLatch]
  | chkCrc8 | chkSum8 => simp only [commandReport, chkCrc8Report, chkSum8Report, hLatch]
  | _ => nomatch h

theorem commandReport_ticks_compute {i : Instr} (s : State) (h : lineOf i = none) : (commandReport i s).ticks = none := by
  cases i with
  | nop | chkCrc8 | chkSum8 => rfl
  | dow => exact resultOrInvalid_ticks _
  | bcdDec | bcdEnc =>
    simp only [commandReport, bcdDecReport, bcdEncReport]
    split
    · exact resultOrInvalid_ticks _
    · rfl
  | _ => nomatch h

/-- Only the line a command uses is ever driven by it; PW_SYNC, PW_BIT and the compute commands drive none (40_common.md R161,
R163). -/
theorem lineOf_of_commandDrive {i : Instr} {L : Latch} {x : Line} {t : Nat} (h : commandDrive i L x t = true) :
    lineOf i = some x := by
  cases x with
  | ow =>
    cases i with
    | owReset | owWrbit | owRdbit | owWrbyte | owRdbyte => rfl
    | _ => exact absurd h Bool.false_ne_true
  | pw =>
    cases i with
    | pwFrame => rfl
    | _ => exact absurd h Bool.false_ne_true

/-- Settles O50: a compute command's run reads only the latched set, of which the line levels are no part, and has no tick. -/
theorem computeCommandsIgnoreLines : Obligations.ComputeCommandsIgnoreLines :=
  ⟨fun _ s _ _ hCompute => ⟨commandReport_compute_congr hCompute rfl, commandReport_ticks_compute s hCompute⟩,
    fun _ _ _ _ hDrive => lineOf_of_commandDrive hDrive⟩

end Sys2Proof.Machine
end

section
/-! What the single-wire commands share (41_single_wire.md section 1, 60_exceptions.md R351): how a line command ends, the words of
an OP that takes a SEL, the timing checks, the samples of a released line, and slots that follow each other. -/

namespace Sys2Proof

theorem Word.ofBit_eq_ite (b : Bool) : Word.ofBit b = if b = true then 1#32 else 0#32 := by cases b <;> rfl

theorem Word.ofBit_not_eq_ite (b : Bool) : Word.ofBit (!b) = if b = false then 1#32 else 0#32 := by cases b <;> rfl

namespace Machine

/-- A line command whose opening checks fail completes with BADCFG, writes nothing and has no tick (40_common.md R153). -/
theorem lineCommand_ends_badcfg {i : Instr} {s : State} {x : Line} {legal : Bool} {body : Report}
    (hReport : commandReport i s = s.lineCommand x legal body) (hBad : s.manualDrive x = true ∨ legal = false) :
    exec i s = .next (s.completedWith .badcfg false s.result s.dbuf) ∧ (commandReport i s).ticks = none := by
  have hRaise : s.lineCommand x legal body = .raise .badcfg := by
    rcases hBad with hDriven | rfl
    · exact State.lineCommand_driven legal body hDriven
    · exact s.lineCommand_illegal x body
  rw [exec_eq, hReport, hRaise, State.finish_raise]
  exact ⟨rfl, rfl⟩

/-- A line command whose opening checks pass completes with its body's report, after its body's ticks (40_common.md R153). -/
theorem lineCommand_ends_body {i : Instr} {s : State} {x : Line} {legal : Bool} {body : Report}
    (hReport : commandReport i s = s.lineCommand x legal body) (hFree : s.manualDrive x = false) (hLegal : legal = true) :
    exec i s = .next (s.finish body) ∧ (commandReport i s).ticks = body.ticks := by
  subst hLegal
  rw [exec_eq, hReport, State.lineCommand_legal body hFree]
  exact ⟨rfl, rfl⟩

/-- The words with the OP of a command that takes any SEL: RSV alone decides between the command and ILLEGAL
(30_encoding.md R122, R123). -/
theorem endsIllegal_of_anySel {op : BitVec 8} {f : BitVec 4 → Instr} (h : ∀ sel, decodeOp op sel = decodeSel (f sel))
    (hAny : ∀ sel, (f sel).wellFormed = true) {w : Word} (hw : cmdOp w = op) :
    (cmdRsv w = 0#20 ∧ decode w = .ok (f (cmdSel w))) ∨ (cmdRsv w ≠ 0#20 ∧ EndsIllegal w) := by
  rcases decode_of_sel h w hw with ⟨hRsv, -, hDecode⟩ | ⟨hReserved, hError⟩
  · exact .inl ⟨hRsv, hDecode⟩
  · have hRsv : cmdRsv w ≠ 0#20 := hReserved.resolve_right (by simp [hAny])
    exact .inr ⟨hRsv, endsIllegal_of_reserved (reservedWord_of_rsv_ne hRsv)⟩

theorem owResetTiming_eq_true_iff (L : Latch) : owResetTiming L = true ↔ 1 ≤ L.tRstl.toNat ∧ 1 ≤ L.tRrec.toNat :=
  decide_eq_true_iff

theorem owResetTiming_eq_false_iff (L : Latch) : owResetTiming L = false ↔ L.tRstl.toNat = 0 ∨ L.tRrec.toNat = 0 := by
  rw [← Bool.not_eq_true, owResetTiming_eq_true_iff]
  omega

theorem owWriteTiming_eq_true_iff (L : Latch) :
    owWriteTiming L = true ↔ 1 ≤ L.tW1l.toNat ∧ 1 ≤ L.tW1h.toNat ∧ 1 ≤ L.tW0l.toNat ∧ 1 ≤ L.tW0h.toNat :=
  decide_eq_true_iff

theorem owWriteTiming_eq_false_iff (L : Latch) :
    owWriteTiming L = false ↔ L.tW1l.toNat = 0 ∨ L.tW1h.toNat = 0 ∨ L.tW0l.toNat = 0 ∨ L.tW0h.toNat = 0 := by
  rw [← Bool.not_eq_true, owWriteTiming_eq_true_iff]
  omega

theorem owReadTiming_eq_true_iff (L : Latch) :
    owReadTiming L = true ↔ 1 ≤ L.tRl.toNat ∧ L.tRl.toNat + L.tRs.toNat + 1 ≤ L.tRslot.toNat :=
  decide_eq_true_iff

theorem owReadTiming_eq_false_iff (L : Latch) :
    owReadTiming L = false ↔ L.tRl.toNat = 0 ∨ L.tRslot.toNat < L.tRl.toNat + L.tRs.toNat + 1 := by
  rw [← Bool.not_eq_true, owReadTiming_eq_true_iff]
  omega

/-- While SWDB releases the line, the command sees the level the outside world presents (40_common.md R157). -/
theorem State.lineLevel_of_released {s : State} {drv : Nat → Bool} {t : Nat} (x : Line) (h : drv t = false) :
    s.lineLevel x drv t = s.ext x t := by
  simp [State.lineLevel, h]

theorem writeSlotDrive_zero_iff (L : Latch) (b : Bool) (t : Nat) : writeSlotDrive L b 0 t = true ↔ t < writeSlotLow L b := by
  simp [writeSlotDrive]

theorem readSlotDrive_zero_iff (L : Latch) (t : Nat) : readSlotDrive L 0 t = true ↔ t < L.tRl.toNat := by
  simp [readSlotDrive]

/-- Slots that start where the one before them ends, each low for a first part of itself: inside slot `k` the line is driven
exactly for the low part of slot `k`. -/
theorem slots_drive_iff {start low : Nat → Nat} (hFits : ∀ j, start j + low j ≤ start (j + 1)) {n k t : Nat} (hk : k < n)
    (hStart : start k ≤ t) (hEnd : t < start (k + 1)) :
    ((List.range n).any fun j => decide (start j ≤ t ∧ t < start j + low j)) = true ↔ t < start k + low k := by
  have hMono : Monotone start := monotone_nat_of_le_succ fun j => by have := hFits j; omega
  simp only [List.any_eq_true, List.mem_range, decide_eq_true_eq]
  constructor
  · rintro ⟨j, -, hFrom, hTo⟩
    have hThis : j = k := by
      rcases Nat.lt_trichotomy j k with hBefore | hEq | hAfter
      · have hNext : start (j + 1) ≤ start k := hMono hBefore
        have := hFits j
        omega
      · exact hEq
      · have hNext : start (k + 1) ≤ start j := hMono hAfter
        omega
    rwa [hThis] at hTo
  · exact fun hLow => ⟨k, hk, hStart, hLow⟩

end Machine
end Sys2Proof
end

section
/-! The single-wire commands of one slot (41_single_wire.md R202 to R204). -/

namespace Sys2Proof.Machine

/-- The presence sample falls after the reset pulse. -/
theorem owResetDrive_presenceSample (L : Latch) : owResetDrive L (L.tRstl.toNat + L.tPds.toNat) = false := by
  simp [owResetDrive]

/-- Settles O17: the checks decide between BADCFG and the body, and the line is released at the presence sample. -/
theorem owResetReportsPresence : Obligations.OwResetReportsPresence := by
  refine ⟨fun w hOp => endsIllegal_of_plain (fun _ => rfl) hOp, fun s hFree hRstl hRrec => ?answers,
    fun s hBad => lineCommand_ends_badcfg rfl (hBad.imp_right (owResetTiming_eq_false_iff s.latch).2),
    fun L t => ⟨decide_eq_true_iff, rfl⟩⟩
  case answers =>
    have hLegal := (owResetTiming_eq_true_iff s.latch).2 ⟨hRstl, hRrec⟩
    obtain ⟨hExec, hTicks⟩ := lineCommand_ends_body (i := .owReset) rfl hFree hLegal
    rw [State.finish_result _ _ _ _ rfl, State.lineLevel_of_released .ow (owResetDrive_presenceSample s.latch),
      Word.ofBit_not_eq_ite] at hExec
    exact ⟨hExec, hTicks⟩

/-- Settles O18: one write slot of `L.ARG0[0]` from tick 0, and an empty report. -/
theorem owWrbitDrivesOneSlot : Obligations.OwWrbitDrivesOneSlot := by
  refine ⟨fun w hOp => endsIllegal_of_plain (fun _ => rfl) hOp, fun s hFree hW1l hW1h hW0l hW0h => ?answers,
    fun s hBad => lineCommand_ends_badcfg rfl (hBad.imp_right (owWriteTiming_eq_false_iff s.latch).2),
    fun L t => ⟨writeSlotDrive_zero_iff L L.writeBit t, rfl⟩⟩
  case answers =>
    have hLegal := (owWriteTiming_eq_true_iff s.latch).2 ⟨hW1l, hW1h, hW0l, hW0h⟩
    obtain ⟨hExec, hTicks⟩ := lineCommand_ends_body (i := .owWrbit) rfl hFree hLegal
    rw [State.finish_nothing] at hExec
    exact ⟨hExec, hTicks⟩

/-- The sampling window of a read slot falls after its low part (41_single_wire.md R200). -/
theorem owRdbitDrive_readSampleTick (L : Latch) : owRdbitDrive L (readSampleTick L 0) = false := by
  rw [← Bool.not_eq_true, owRdbitDrive, readSlotDrive_zero_iff, readSampleTick]
  omega

/-- Settles O19: one read slot from tick 0, whose line is released at the sampling window. -/
theorem owRdbitSamplesWindow : Obligations.OwRdbitSamplesWindow := by
  refine ⟨fun w hOp => endsIllegal_of_plain (fun _ => rfl) hOp, fun s hFree hRl hSlot => ?answers,
    fun s hBad => lineCommand_ends_badcfg rfl (hBad.imp_right (owReadTiming_eq_false_iff s.latch).2),
    fun L t => ⟨readSlotDrive_zero_iff L t, rfl⟩⟩
  case answers =>
    have hLegal := (owReadTiming_eq_true_iff s.latch).2 ⟨hRl, hSlot⟩
    obtain ⟨hExec, hTicks⟩ := lineCommand_ends_body (i := .owRdbit) rfl hFree hLegal
    rw [State.finish_result _ _ _ _ rfl, State.lineLevel_of_released .ow (owRdbitDrive_readSampleTick s.latch),
      Word.ofBit_eq_ite, readSampleTick, Nat.zero_add] at hExec
    exact ⟨hExec, hTicks⟩

end Sys2Proof.Machine
end

section
/-! The single-wire commands of eight slots (41_single_wire.md R205, R206). -/

namespace Sys2Proof.Machine

theorem Latch.writeByte_getLsbD (L : Latch) {k : Nat} (hk : k < 8) : L.writeByte.getLsbD k = L.arg0.getLsbD k := by
  simp [Latch.writeByte, hk]

theorem writeSlotStart_writeByte (L : Latch) {k : Nat} (hk : k ≤ 8) :
    writeSlotStart L L.writeByte k = ((List.range k).map fun j => writeSlotLen L (L.arg0.getLsbD j)).sum := by
  rw [writeSlotStart_eq_sum]
  refine congrArg List.sum (List.map_congr_left fun j hj => ?_)
  rw [L.writeByte_getLsbD (lt_of_lt_of_le (List.mem_range.1 hj) hk)]

/-- The length of write slots one after another, by the number of 1 bits among them. -/
theorem sum_map_writeSlotLen (L : Latch) (bit : Nat → Bool) (n : Nat) :
    ((List.range n).map fun j => writeSlotLen L (bit j)).sum =
      (List.range n).countP bit * writeSlotLen L true + (n - (List.range n).countP bit) * writeSlotLen L false := by
  have hLen (j : Nat) : writeSlotLen L (bit j) = if bit j = true then writeSlotLen L true else writeSlotLen L false := by
    cases bit j <;> rfl
  have hZeros : (List.range n).countP (fun j => ¬ bit j = true) = n - (List.range n).countP bit := by
    have hSplit := List.length_eq_countP_add_countP bit (l := List.range n)
    rw [List.length_range] at hSplit
    omega
  simp only [hLen, List.sum_map_ite, List.map_const', List.sum_replicate, smul_eq_mul, ← List.countP_eq_length_filter, hZeros,
    Bool.decide_eq_true]

theorem owWrbyteDrive_slot_iff (L : Latch) {k t : Nat} (hk : k < 8) (hStart : writeSlotStart L L.writeByte k ≤ t)
    (hEnd : t < writeSlotStart L L.writeByte (k + 1)) :
    owWrbyteDrive L t = true ↔ t < writeSlotStart L L.writeByte k + writeSlotLow L (L.writeByte.getLsbD k) :=
  slots_drive_iff (low := fun j => writeSlotLow L (L.writeByte.getLsbD j))
    (fun _ => Nat.add_le_add_left (writeSlotLow_le_len L _) _) hk hStart hEnd

/-- Settles O20: slot `k` starts at the sum of the lengths before it, and drives for the low time of bit `k`. -/
theorem owWrbyteDrivesEightSlots : Obligations.OwWrbyteDrivesEightSlots := by
  refine ⟨fun w hOp => endsIllegal_of_plain (fun _ => rfl) hOp, fun s hFree hW1l hW1h hW0l hW0h => ?answers,
    fun s hBad => lineCommand_ends_badcfg rfl (hBad.imp_right (owWriteTiming_eq_false_iff s.latch).2),
    fun L t => ⟨rfl, fun k hk => ?slot⟩⟩
  case answers =>
    have hLegal := (owWriteTiming_eq_true_iff s.latch).2 ⟨hW1l, hW1h, hW0l, hW0h⟩
    obtain ⟨hExec, hTicks⟩ := lineCommand_ends_body (i := .owWrbyte) rfl hFree hLegal
    rw [State.finish_nothing] at hExec
    refine ⟨hExec, hTicks.trans (congrArg some ?_)⟩
    rw [writeSlotStart_writeByte s.latch le_rfl, sum_map_writeSlotLen]
    rfl
  case slot =>
    intro len start hStart hEnd
    have hSlotStart : writeSlotStart L L.writeByte k = start := writeSlotStart_writeByte L hk.le
    have hBit := L.writeByte_getLsbD hk
    have hSlotEnd : writeSlotStart L L.writeByte (k + 1) = start + len k := by
      rw [writeSlotStart, hSlotStart, hBit]
      rfl
    have hDrive := owWrbyteDrive_slot_iff L hk (hSlotStart.trans_le hStart) (hEnd.trans_eq hSlotEnd.symm)
    rwa [hSlotStart, hBit] at hDrive

theorem owRdbyteDrive_slot_iff (L : Latch) (hLow : L.tRl.toNat ≤ L.tRslot.toNat) {k t : Nat} (hk : k < 8)
    (hStart : k * L.tRslot.toNat ≤ t) (hEnd : t < k * L.tRslot.toNat + L.tRslot.toNat) :
    owRdbyteDrive L t = true ↔ t < k * L.tRslot.toNat + L.tRl.toNat :=
  slots_drive_iff (start := (· * L.tRslot.toNat)) (low := fun _ => L.tRl.toNat)
    (fun j => (Nat.add_le_add_left hLow _).trans_eq (Nat.succ_mul j _).symm) hk hStart
    (hEnd.trans_eq (Nat.succ_mul k _).symm)

/-- With legal timing the sampling window of each of the eight slots falls after the slot's low part and before the next slot
(41_single_wire.md R200, 60_exceptions.md R351). -/
theorem owRdbyteDrive_readSampleTick (L : Latch) (hSlot : L.tRl.toNat + L.tRs.toNat + 1 ≤ L.tRslot.toNat) {k : Nat} (hk : k < 8) :
    owRdbyteDrive L (readSampleTick L (k * L.tRslot.toNat)) = false := by
  rw [← Bool.not_eq_true, readSampleTick, owRdbyteDrive_slot_iff L (by omega) hk (by omega) (by omega)]
  omega

/-- The completion of a command that puts one byte into RESULT and into `DBUF[i]` (41_single_wire.md R206). -/
theorem State.finish_byte (i : BitVec 4) (b : Byte) (d : Option Nat) (s : State) :
    s.finish ⟨.ok, [.result (Word.ofByte b), .dbuf i b], false, d⟩ =
      s.completedWith .ok false (b.setWidth 32) (s.dbuf.set i.toNat b i.isLt) :=
  State.finish_eq _ s

/-- Settles O21: bit `k` of the byte is the sample of slot `k`, and the line is released at every sample. -/
theorem owRdbyteReadsLeastBitFirst : Obligations.OwRdbyteReadsLeastBitFirst := by
  refine ⟨fun w hOp => endsIllegal_of_anySel (fun _ => rfl) (fun _ => rfl) hOp, fun i s hFree hRl hSlot => ?answers,
    fun i s hBad => lineCommand_ends_badcfg rfl (hBad.imp_right (owReadTiming_eq_false_iff s.latch).2),
    fun i L t => ⟨rfl, fun k hk hStart hEnd hLow => owRdbyteDrive_slot_iff L hLow hk hStart hEnd⟩⟩
  case answers =>
    have hLegal := (owReadTiming_eq_true_iff s.latch).2 ⟨hRl, hSlot⟩
    obtain ⟨hExec, hTicks⟩ := lineCommand_ends_body (i := .owRdbyte i) rfl hFree hLegal
    rw [State.finish_byte] at hExec
    refine ⟨_, fun k hk => ?_, hExec, hTicks⟩
    rw [readByte_getLsbD _ _ k hk, State.lineLevel_of_released .ow (owRdbyteDrive_readSampleTick s.latch hSlot hk), readSampleTick]

end Sys2Proof.Machine
end

section
/-! How PW_SYNC and PW_BIT end, by the pulses on the line (42_pulse_width.md R240 to R243, R247, R248): the primitives from any
starting tick first, then the two commands, whose body starts at tick 0 and sees the line as the outside world presents it. -/

namespace Sys2Proof.Machine

/-- The three waits of the synchronisation phase, each inside its budget (42_pulse_width.md R242). -/
theorem syncPhase_synced {L : Latch} {line : Nat → Bool} {s t1 t2 t3 : Nat}
    (hLow : FirstAt line false s t1) (hIn1 : t1 < s + L.tSync.toNat)
    (hHigh : FirstAt line true (t1 + 1) t2) (hIn2 : t2 < t1 + 1 + L.tSync.toNat)
    (hLow' : FirstAt line false (t2 + 1) t3) (hIn3 : t3 < t2 + 1 + L.tSync.toNat) :
    syncPhase L line s = .synced (t3 + 1) := by
  simp only [syncPhase, waitLevel_found _ _ hLow hIn1, waitLevel_found _ _ hHigh hIn2, waitLevel_found _ _ hLow' hIn3]

/-- A line that stays high expires wait 1 (42_pulse_width.md R242). -/
theorem syncPhase_expires_first {L : Latch} {line : Nat → Bool} {s : Nat} (hStuck : Holds line true s (s + L.tSync.toNat)) :
    syncPhase L line s = .noDevice (s + L.tSync.toNat - 1) := by
  simp only [syncPhase, waitLevel_expired (lvl := false) _ _ hStuck]

/-- A line that stays low after its first low tick expires wait 2 (42_pulse_width.md R242). -/
theorem syncPhase_expires_second {L : Latch} {line : Nat → Bool} {s t1 : Nat}
    (hLow : FirstAt line false s t1) (hIn1 : t1 < s + L.tSync.toNat)
    (hStuck : Holds line false (t1 + 1) (t1 + 1 + L.tSync.toNat)) :
    syncPhase L line s = .noDevice (t1 + 1 + L.tSync.toNat - 1) := by
  simp only [syncPhase, waitLevel_found _ _ hLow hIn1, waitLevel_expired (lvl := true) _ _ hStuck]

/-- A line that stays high after its low tick and its high tick expires wait 3 (42_pulse_width.md R242). -/
theorem syncPhase_expires_third {L : Latch} {line : Nat → Bool} {s t1 t2 : Nat}
    (hLow : FirstAt line false s t1) (hIn1 : t1 < s + L.tSync.toNat)
    (hHigh : FirstAt line true (t1 + 1) t2) (hIn2 : t2 < t1 + 1 + L.tSync.toNat)
    (hStuck : Holds line true (t2 + 1) (t2 + 1 + L.tSync.toNat)) :
    syncPhase L line s = .noDevice (t2 + 1 + L.tSync.toNat - 1) := by
  simp only [syncPhase, waitLevel_found _ _ hLow hIn1, waitLevel_found _ _ hHigh hIn2,
    waitLevel_expired (lvl := false) _ _ hStuck]

/-- A pulse from tick `r` to tick `q`, no longer than the bound, is a bit of width `q - r` (42_pulse_width.md R240). -/
theorem measureBit_pulse {L : Latch} {line : Nat → Bool} {s r q : Nat} (hRise : FirstAt line true s r)
    (hIn : r < s + L.tSync.toNat) (hFall : FirstAt line false (r + 1) q) (hBound : q ≤ r + L.tPwmax.toNat) :
    measureBit L line s = .bit (decide (L.tThr.toNat < q - r)) (q - r) (q + 1) := by
  simp only [measureBit, waitLevel_found _ _ hRise hIn, waitLevel_found L.tPwmax.toNat _ hFall (by omega)]

/-- A pulse still high `T_PWMAX` ticks after its rise hits the bound (42_pulse_width.md R240, R241). -/
theorem measureBit_overflow {L : Latch} {line : Nat → Bool} {s r : Nat} (hRise : FirstAt line true s r)
    (hIn : r < s + L.tSync.toNat) (hHigh : Holds line true r (r + L.tPwmax.toNat + 1)) :
    measureBit L line s = .overflow (r + L.tPwmax.toNat + 1) := by
  have hPoll : Holds line (!false) (r + 1) (r + 1 + L.tPwmax.toNat) := fun u hFrom hTo => hHigh u (by omega) (by omega)
  simp only [measureBit, waitLevel_found _ _ hRise hIn, waitLevel_expired _ _ hPoll, BitEnd.overflow.injEq]
  omega

/-- A line that stays low for the budget gives no bit (42_pulse_width.md R240). -/
theorem measureBit_startTimeout {L : Latch} {line : Nat → Bool} {s : Nat} (hStuck : Holds line false s (s + L.tSync.toNat)) :
    measureBit L line s = .startTimeout (s + L.tSync.toNat - 1) := by
  simp only [measureBit, waitLevel_expired (lvl := true) _ _ hStuck]

theorem pwSyncTiming_eq_true_iff (L : Latch) : pwSyncTiming L = true ↔ 1 ≤ L.tSync.toNat := decide_eq_true_iff

theorem pwSyncTiming_eq_false_iff (L : Latch) : pwSyncTiming L = false ↔ L.tSync.toNat = 0 := by
  rw [← Bool.not_eq_true, pwSyncTiming_eq_true_iff]
  omega

theorem pwBitTiming_eq_true_iff (L : Latch) : pwBitTiming L = true ↔ 1 ≤ L.tSync.toNat ∧ 1 ≤ L.tPwmax.toNat :=
  decide_eq_true_iff

theorem pwBitTiming_eq_false_iff (L : Latch) : pwBitTiming L = false ↔ L.tSync.toNat = 0 ∨ L.tPwmax.toNat = 0 := by
  rw [← Bool.not_eq_true, pwBitTiming_eq_true_iff]
  omega

/-- The code PW_SYNC completes with, by how Sync ends (42_pulse_width.md R247). -/
def SyncEnd.code : SyncEnd → ErrCode
  | .synced _ => .ok
  | .noDevice _ => .nodev

/-- The ticks up to the one where Sync ends (40_common.md R156, 42_pulse_width.md R242). -/
def SyncEnd.ticks : SyncEnd → Nat
  | .synced next => next
  | .noDevice last => last + 1

/-- A wait from tick `s` that expires lets the command end at tick `s + T_SYNC` (40_common.md R156, R159). -/
theorem SyncEnd.ticks_expired {b : Nat} (s : Nat) (h : 1 ≤ b) : (SyncEnd.noDevice (s + b - 1)).ticks = s + b :=
  Nat.sub_add_cancel (Nat.le_add_left_of_le h)

/-- PW_SYNC ends as Sync on the outside levels ends, and writes nothing (42_pulse_width.md R247). -/
theorem pwSync_ends {s : State} {e : SyncEnd} {d : Nat} (hFree : s.pwDrv = false) (hSync : 1 ≤ s.latch.tSync.toNat)
    (hEnd : syncPhase s.latch (s.ext .pw) 0 = e) (hTicks : e.ticks = d) :
    exec .pwSync s = .next (s.completedWith e.code false s.result s.dbuf) ∧ (commandReport .pwSync s).ticks = some d := by
  have hBody := lineCommand_ends_body (i := .pwSync) rfl hFree ((pwSyncTiming_eq_true_iff s.latch).2 hSync)
  rw [State.lineLevel_noDrive, hEnd] at hBody
  subst hTicks
  cases e with
  | synced | noDevice => rwa [State.finish_nothing] at hBody

/-- Settles O22: each way Sync can end, by which of its three waits expires. -/
theorem pwSyncWaitsLowHighLow : Obligations.PwSyncWaitsLowHighLow := by
  refine ⟨fun w hOp => endsIllegal_of_plain (fun _ => rfl) hOp, fun s hFree hSync => ?answers,
    fun s hBad => lineCommand_ends_badcfg rfl (hBad.imp_right (pwSyncTiming_eq_false_iff s.latch).2), fun _ _ _ => rfl⟩
  case answers =>
    have hZero : s.latch.tSync.toNat = 0 + s.latch.tSync.toNat := (Nat.zero_add _).symm
    refine ⟨fun t1 t2 t3 hLow hIn1 hHigh hIn2 hLow' hIn3 => ?ok, fun hStuck => ?expires1, fun t1 hLow hIn1 hStuck => ?expires2,
      fun t1 t2 hLow hIn1 hHigh hIn2 hStuck => ?expires3⟩
    case ok => exact pwSync_ends hFree hSync (syncPhase_synced hLow (hIn1.trans_eq hZero) hHigh hIn2 hLow' hIn3) rfl
    case expires1 =>
      rw [hZero] at hStuck
      exact pwSync_ends hFree hSync (syncPhase_expires_first hStuck) ((SyncEnd.ticks_expired 0 hSync).trans hZero.symm)
    case expires2 =>
      exact pwSync_ends hFree hSync (syncPhase_expires_second hLow (hIn1.trans_eq hZero) hStuck) (SyncEnd.ticks_expired _ hSync)
    case expires3 =>
      exact pwSync_ends hFree hSync (syncPhase_expires_third hLow (hIn1.trans_eq hZero) hHigh hIn2 hStuck)
        (SyncEnd.ticks_expired _ hSync)

/-- What PW_BIT reports, by how its one measurement ends (42_pulse_width.md R241, R243, R248). -/
def BitEnd.report (toz : Bool) : BitEnd → Report
  | .bit b d next => ⟨.ok, [.result (bitResult b d)], false, some next⟩
  | .overflow next => if toz then ⟨.ok, [.result 0#32], true, some next⟩ else ⟨.timeout, [], true, some next⟩
  | .startTimeout last => ⟨.timeout, [], false, some (last + 1)⟩

/-- PW_BIT ends as its measurement of the outside levels from tick 0 ends (42_pulse_width.md R248). -/
theorem pwBit_ends {s : State} {e : BitEnd} (hFree : s.pwDrv = false) (hSync : 1 ≤ s.latch.tSync.toNat)
    (hMax : 1 ≤ s.latch.tPwmax.toNat) (hEnd : measureBit s.latch (s.ext .pw) 0 = e) :
    exec .pwBit s = .next (s.finish (e.report s.latch.toz)) ∧
      (commandReport .pwBit s).ticks = (e.report s.latch.toz).ticks := by
  have hBody := lineCommand_ends_body (i := .pwBit) rfl hFree ((pwBitTiming_eq_true_iff s.latch).2 ⟨hSync, hMax⟩)
  rw [State.lineLevel_noDrive, hEnd] at hBody
  cases e with
  | bit | overflow | startTimeout => exact hBody

theorem toNat_append_eq_add {n m : Nat} (x : BitVec n) (y : BitVec m) : (x ++ y).toNat = x.toNat * 2 ^ m + y.toNat := by
  rw [BitVec.toNat_append, ← Nat.shiftLeft_add_eq_or_of_lt y.isLt, Nat.shiftLeft_eq]

/-- A width that fits its byte of RESULT is read back as it is, the bit below it (42_pulse_width.md R248). -/
theorem bitResult_decide (p : Prop) [Decidable p] {d : Nat} (hWidth : d < 256) :
    bitResult (decide p) d = BitVec.ofNat 32 (256 * d + if p then 1 else 0) := by
  apply BitVec.eq_of_toNat_eq
  rw [bitResult, BitVec.toNat_setWidth, toNat_append_eq_add, toNat_append_eq_add, BitVec.toNat_ofNat, BitVec.toNat_ofNat,
    BitVec.toNat_ofNat, BitVec.toNat_ofBool]
  by_cases hp : p <;> simp [hp] <;> omega

theorem BitEnd.finish_report_bit (p : Prop) [Decidable p] (toz : Bool) {d : Nat} (next : Nat) (s : State) (hWidth : d < 256) :
    s.finish ((BitEnd.bit (decide p) d next).report toz) =
      s.completedWith .ok false (BitVec.ofNat 32 (256 * d + if p then 1 else 0)) s.dbuf := by
  rw [BitEnd.report, State.finish_result _ _ _ _ rfl, bitResult_decide p hWidth]

/-- A pulse that hits the bound raises OVF; TOZ says whether RESULT takes 0 or the command fails (42_pulse_width.md R241,
R243). -/
theorem BitEnd.finish_report_overflow (toz : Bool) (next : Nat) (s : State) :
    s.finish ((BitEnd.overflow next).report toz) =
      if toz = true then s.completedWith .ok true 0#32 s.dbuf else s.completedWith .timeout true s.result s.dbuf := by
  cases toz with
  | false => exact s.finish_nothing .timeout true (some next)
  | true => exact s.finish_result 0#32 true (some next) rfl

theorem BitEnd.ticks_report_overflow (toz : Bool) (next : Nat) : ((BitEnd.overflow next).report toz).ticks = some next := by
  cases toz <;> rfl

/-- Settles O23: a pulse inside the bound, a pulse that hits it, and no pulse. -/
theorem pwBitMeasuresPulse : Obligations.PwBitMeasuresPulse := by
  refine ⟨fun w hOp => endsIllegal_of_plain (fun _ => rfl) hOp, fun s hFree hSync hMax => ?answers,
    fun s hBad => lineCommand_ends_badcfg rfl (hBad.imp_right (pwBitTiming_eq_false_iff s.latch).2), fun _ _ _ => rfl⟩
  case answers =>
    have hZero : s.latch.tSync.toNat = 0 + s.latch.tSync.toNat := (Nat.zero_add _).symm
    refine ⟨fun r q hRise hIn hFall hBound => ?bit, fun r hRise hIn hHigh => ?overflow, fun hStuck => ?timeout⟩
    case bit =>
      have hWidth : q - r < 256 := by have := s.latch.tPwmax.isLt; omega
      obtain ⟨hExec, hTicks⟩ := pwBit_ends hFree hSync hMax (measureBit_pulse hRise (hIn.trans_eq hZero) hFall hBound)
      rw [BitEnd.finish_report_bit _ _ _ _ hWidth] at hExec
      exact ⟨hExec, hTicks⟩
    case overflow =>
      obtain ⟨hExec, hTicks⟩ := pwBit_ends hFree hSync hMax (measureBit_overflow hRise (hIn.trans_eq hZero) hHigh)
      rw [BitEnd.finish_report_overflow] at hExec
      rw [BitEnd.ticks_report_overflow] at hTicks
      exact ⟨hExec, hTicks⟩
    case timeout =>
      rw [hZero] at hStuck
      obtain ⟨hExec, hTicks⟩ := pwBit_ends hFree hSync hMax (measureBit_startTimeout hStuck)
      rw [BitEnd.report, State.finish_nothing] at hExec
      exact ⟨hExec, hTicks.trans (congrArg some (by omega))⟩

end Sys2Proof.Machine
end

section
/-! The BCD commands (43_bcd.md R280 to R282): the words of an OP whose SEL is bounded, how a compute command ends that gives a value
or raises INVALID, and the two bodies as one condition and one value. -/

namespace Sys2Proof.Machine

/-- The words with the OP of a command that takes a SEL up to `n`: RSV and that bound decide between the command and ILLEGAL
(30_encoding.md R122, R123). -/
theorem endsIllegal_of_boundedSel {op : BitVec 8} {f : BitVec 4 → Instr} {n : Nat}
    (h : ∀ sel, decodeOp op sel = decodeSel (f sel)) (hBound : ∀ sel, (f sel).wellFormed = decide (sel.toNat ≤ n)) {w : Word}
    (hw : cmdOp w = op) :
    (cmdRsv w = 0#20 ∧ (cmdSel w).toNat ≤ n ∧ decode w = .ok (f (cmdSel w))) ∨
      ((cmdRsv w ≠ 0#20 ∨ n < (cmdSel w).toNat) ∧ EndsIllegal w) := by
  have hWords := decode_of_sel h w hw
  rw [hBound, decide_eq_true_iff, decide_eq_false_iff_not, Nat.not_le] at hWords
  exact hWords.imp_right fun ⟨hReserved, hError⟩ =>
    ⟨hReserved, endsIllegal_of_reserved ((reservedWord_iff_decode_error w).2 hError)⟩

/-- A command that raises a code completes with it and leaves RESULT and DBUF (40_common.md R155). -/
theorem exec_of_raise {i : Instr} {s : State} {code : ErrCode} (h : commandReport i s = .raise code) :
    exec i s = .next (s.completedWith code false s.result s.dbuf) := by
  rw [exec_eq, h, State.finish_raise]

/-- A compute command whose body gives `v` under the condition `p`: RESULT takes `v`, or INVALID leaves it. -/
theorem exec_of_resultOrInvalid {i : Instr} {s : State} {p : Prop} [Decidable p] {v : Nat}
    (h : commandReport i s = resultOrInvalid (if p then some v else none)) :
    (p → exec i s = .next (s.completedWith .ok false (BitVec.ofNat 32 v) s.dbuf)) ∧
      (¬ p → exec i s = .next (s.completedWith .invalid false s.result s.dbuf)) := by
  constructor
  · intro hp
    rw [if_pos hp] at h
    rw [exec_eq, h]
    exact congrArg _ (s.finish_result (Word.ofNat v) false none rfl)
  · intro hp
    rw [if_neg hp] at h
    exact exec_of_raise h

theorem bcdDecReport_illegal {sel : BitVec 4} (s : State) (h : 7 < sel.toNat) : bcdDecReport sel s = .raise .illegal := by
  rw [bcdDecReport, BcdField.ofSel_none h]

theorem bcdEncReport_illegal {sel : BitVec 4} (s : State) (h : 7 < sel.toNat) : bcdEncReport sel s = .raise .illegal := by
  rw [bcdEncReport, BcdField.ofSel_none h]

theorem bcdDecReport_field {sel : BitVec 4} {f : BcdField} (s : State) (h : BcdField.ofSel sel = some f) :
    bcdDecReport sel s = resultOrInvalid (bcdDecode f (s.latch.arg0.toNat % 256)) := by
  rw [bcdDecReport, h, Latch.bcdByte, BitVec.extractLsb'_toNat, Nat.shiftRight_zero]

theorem bcdEncReport_field {sel : BitVec 4} {f : BcdField} (s : State) (h : BcdField.ofSel sel = some f) :
    bcdEncReport sel s = resultOrInvalid (bcdEncode f s.latch.arg0.toNat) := by
  rw [bcdEncReport, h, Latch.decimal]

/-- The range of the field a SEL names is the row of R280's table. -/
theorem BcdField.inRange_iff {sel : BitVec 4} {f : BcdField} (hLo : f.lo = (bcdRanges.getD sel.toNat (1, 0)).1)
    (hHi : f.hi = (bcdRanges.getD sel.toNat (1, 0)).2) (v : Nat) : f.inRange v = true ↔ InBcdRange sel.toNat v := by
  rw [BcdField.inRange, decide_eq_true_iff, hLo, hHi, InBcdRange]

/-- BCD_DEC accepts a byte when both digits of the masked byte `b` are decimal and the value `v` they stand for is in range
(43_bcd.md R281). -/
theorem bcdDecode_eq_ite {f : BcdField} {byte b v : Nat} (hMask : (if f = .sec then byte % 128 else byte) = b)
    (hValue : (if f = .year then 2000 else 0) + bcdToDec b = v) :
    bcdDecode f byte = if b / 16 ≤ 9 ∧ b % 16 ≤ 9 ∧ f.inRange v = true then some v else none := by
  have hCentury : (if f = .year then 2000 + bcdToDec b else bcdToDec b) = v := by
    rw [← hValue]
    split <;> omega
  simp only [bcdDecode, hMask, hCentury]
  by_cases hDigits : b / 16 ≤ 9 ∧ b % 16 ≤ 9
  · rw [if_neg (by omega)]
    simp only [hDigits, true_and]
  · rw [if_pos (by omega), if_neg fun ⟨hHigh, hLow, _⟩ => hDigits ⟨hHigh, hLow⟩]

/-- The tens digit of seconds is 5 at most, so bit 7 of its byte, the clock-halt bit, is 0 (43_bcd.md R282). -/
theorem decToBcd_sec_lt {v : Nat} (h : BcdField.sec.inRange v = true) : decToBcd v < 128 := by
  obtain ⟨-, hMax⟩ : 0 ≤ v ∧ v ≤ 59 := of_decide_eq_true h
  unfold decToBcd
  omega

/-- BCD_ENC accepts a value in range and gives its two digits without the century, `u`; the mask of SEC changes nothing
(43_bcd.md R282). -/
theorem bcdEncode_eq_ite {f : BcdField} {v u : Nat} (hYear : v - (if f = .year then 2000 else 0) = u) :
    bcdEncode f v = if f.inRange v = true then some (decToBcd u) else none := by
  have hCentury : (if f = .year then v - 2000 else v) = u := by
    rw [← hYear]
    split <;> rfl
  rw [bcdEncode, hCentury]
  refine if_ctx_congr Iff.rfl (fun hRange => congrArg some ?masked) fun _ => rfl
  case masked =>
    by_cases hSec : f = .sec
    · subst hSec
      obtain rfl : v = u := hYear
      rw [if_pos rfl, Nat.mod_eq_of_lt (decToBcd_sec_lt hRange)]
    · rw [if_neg hSec]

/-- Settles O27: `bcdDecode` of the field SEL names, as one condition and one value. -/
theorem bcdDecChecksAndDecodes : Obligations.BcdDecChecksAndDecodes := by
  refine ⟨fun w hOp => endsIllegal_of_boundedSel (fun _ => rfl) (fun _ => rfl) hOp,
    fun s sel hIllegal => exec_of_raise (bcdDecReport_illegal s hIllegal), fun s sel hLegal => ?legal⟩
  case legal =>
    intro byte b v
    obtain ⟨f, hField, hSec, hYear, hLo, hHi⟩ := BcdField.ofSel_legal hLegal
    have hMask : (if f = .sec then byte % 128 else byte) = b := if_congr hSec rfl rfl
    have hValue : (if f = .year then 2000 else 0) + bcdToDec b = v := congrArg (· + bcdToDec b) (if_congr hYear rfl rfl)
    obtain ⟨hOk, hInvalid⟩ := exec_of_resultOrInvalid (i := .bcdDec sel)
      ((bcdDecReport_field s hField).trans (congrArg resultOrInvalid (bcdDecode_eq_ite hMask hValue)))
    rw [BcdField.inRange_iff hLo hHi] at hOk hInvalid
    exact ⟨fun hHigh hLow hRange => hOk ⟨hHigh, hLow, hRange⟩, hInvalid⟩

/-- Settles O28: `bcdEncode` of the field SEL names, as one condition and one value. -/
theorem bcdEncChecksAndEncodes : Obligations.BcdEncChecksAndEncodes := by
  refine ⟨fun w hOp => endsIllegal_of_boundedSel (fun _ => rfl) (fun _ => rfl) hOp,
    fun s sel hIllegal => exec_of_raise (bcdEncReport_illegal s hIllegal), fun s sel hLegal => ?legal⟩
  case legal =>
    intro v u
    obtain ⟨f, hField, hSec, hYear, hLo, hHi⟩ := BcdField.ofSel_legal hLegal
    have hCentury : v - (if f = .year then 2000 else 0) = u := congrArg (v - ·) (if_congr hYear rfl rfl)
    have hRange := BcdField.inRange_iff hLo hHi v
    obtain ⟨hOk, hInvalid⟩ := exec_of_resultOrInvalid (i := .bcdEnc sel)
      ((bcdEncReport_field s hField).trans (congrArg resultOrInvalid (bcdEncode_eq_ite hCentury)))
    rw [hRange] at hOk hInvalid
    refine ⟨fun hIn => ⟨hOk hIn, fun hSel => ?clockHalt⟩, hInvalid⟩
    case clockHalt =>
      obtain rfl : f = .sec := hSec.2 hSel
      have hSame : v = u := hCentury
      exact hSame ▸ decToBcd_sec_lt (hRange.2 hIn)

end Sys2Proof.Machine
end

section
/-! DOW (44_day_of_week.md R310, R311): its operands as parts of ARG0 and ARG1, the dates it accepts, the formula with its month
shift, and how the command ends on a date. -/

namespace Sys2Proof.Machine

theorem Latch.month_eq (L : Latch) : L.month = L.arg1.toNat % 256 := by
  rw [Latch.month, BitVec.extractLsb'_toNat, Nat.shiftRight_zero]

theorem Latch.day_eq (L : Latch) : L.day = L.arg1.toNat / 256 % 256 := by
  rw [Latch.day, BitVec.extractLsb'_toNat, Nat.shiftRight_eq_div_pow]

theorem dateAccepted_eq_true_iff (y m d : Nat) :
    dateAccepted y m d = true ↔ (1 ≤ y ∧ y ≤ 9999) ∧ (1 ≤ m ∧ m ≤ 12) ∧ (1 ≤ d ∧ d ≤ 31) :=
  decide_eq_true_iff

/-- One formula for all months: the shift of January and February acts on the year and the month apart (44_day_of_week.md R310). -/
theorem dayOfWeek_eq_zeller (y m d : Nat) :
    dayOfWeek y m d = (zeller (if m < 3 then y - 1 else y) (if m < 3 then m + 12 else m) d + 5) % 7 + 1 := by
  unfold dayOfWeek
  split <;> rfl

/-- DOW on the date its operands name: the weekday goes to RESULT, or INVALID leaves it (44_day_of_week.md R311). -/
theorem exec_dow {s : State} {y m d : Nat} (hYear : s.latch.year = y) (hMonth : s.latch.month = m) (hDay : s.latch.day = d) :
    (dateAccepted y m d = true →
        exec .dow s = .next (s.completedWith .ok false (BitVec.ofNat 32 (dayOfWeek y m d)) s.dbuf)) ∧
      (¬ dateAccepted y m d = true → exec .dow s = .next (s.completedWith .invalid false s.result s.dbuf)) := by
  subst hYear hMonth hDay
  exact exec_of_resultOrInvalid rfl

/-- DOW on operands given as words, as the vectors of R313 are: an accepted date puts its weekday `v` into RESULT. -/
theorem exec_dow_of_args {s : State} {a b : Word} {v : Nat} (hArg0 : s.latch.arg0 = a) (hArg1 : s.latch.arg1 = b)
    (hDate : dateAccepted a.toNat (b.toNat % 256) (b.toNat / 256 % 256) = true)
    (hWeekday : dayOfWeek a.toNat (b.toNat % 256) (b.toNat / 256 % 256) = v) :
    exec .dow s = .next (s.completedWith .ok false (BitVec.ofNat 32 v) s.dbuf) := by
  subst hArg0 hArg1 hWeekday
  exact (exec_dow rfl s.latch.month_eq s.latch.day_eq).1 hDate

/-- Settles O30: the encoding by `endsIllegal_of_plain`, the operands' ranges as one condition, and the formula with its shift. -/
theorem dowComputesWeekday : Obligations.DowComputesWeekday := by
  refine ⟨fun w hOp => endsIllegal_of_plain (fun _ => rfl) hOp, fun s => ?date⟩
  case date =>
    intro y m d m' y' K J h
    obtain ⟨hOk, hInvalid⟩ := exec_dow (s := s) (y := y) (m := m) (d := d) rfl s.latch.month_eq s.latch.day_eq
    have hFormula : dayOfWeek y m d = (h + 5) % 7 + 1 := dayOfWeek_eq_zeller y m d
    rw [hFormula, dateAccepted_eq_true_iff] at hOk
    rw [dateAccepted_eq_true_iff] at hInvalid
    exact ⟨fun hYearLo hYearHi hMonthLo hMonthHi hDayLo hDayHi =>
        hOk ⟨⟨hYearLo, hYearHi⟩, ⟨hMonthLo, hMonthHi⟩, hDayLo, hDayHi⟩,
      fun hOut => hInvalid (by omega)⟩

/-- Settles O31: the three dates of R313 are accepted, and the formula evaluates to their weekdays. -/
theorem dowGivesKiwiVectors : Obligations.DowGivesKiwiVectors := fun _ =>
  ⟨fun hArg0 hArg1 => exec_dow_of_args hArg0 hArg1 (by decide) (by decide),
    fun hArg0 hArg1 => exec_dow_of_args hArg0 hArg1 (by decide) (by decide),
    fun hArg0 hArg1 => exec_dow_of_args hArg0 hArg1 (by decide) (by decide)⟩

end Sys2Proof.Machine
end

section
/-! The checksum commands (45_checksum.md R330 to R333): the covered bytes by their indices, how a checksum command ends, the CRC over
the bits of each byte and its register step as a reversible one, and the sum of the covered bytes. -/

namespace Sys2Proof.Machine

theorem filterMap_finRange_lt_eq_take {α : Type} {m : Nat} (f : Fin m → α) (n : Nat) :
    ((List.finRange m).filterMap fun j => if j.val < n then some (f j) else none) = (List.ofFn f).take n := by
  induction m generalizing n with
  | zero => simp
  | succ m ih =>
    rw [List.ofFn_succ, List.finRange_succ]
    cases n with
    | zero => simp
    | succ n =>
      rw [List.take_succ_cons, ← ih]
      simp [List.filterMap_map]

/-- The bytes a checksum command covers are those of index below `n` (45_checksum.md R331, R333). -/
theorem Latch.frame_eq_filterMap (L : Latch) (n : BitVec 4) :
    L.frame n = (List.finRange 16).filterMap fun j => if j.val < n.toNat then some L.dbuf[j] else none := by
  have hBytes : L.dbuf.toList = List.ofFn fun j : Fin 16 => L.dbuf[j] := by
    rw [← Vector.toList_ofFn]
    exact congrArg _ Vector.ofFn_getElem.symm
  rw [Latch.frame, hBytes, filterMap_finRange_lt_eq_take]

theorem sum_map_ite_eq_sum_filterMap {α β : Type} (p : α → Prop) [DecidablePred p] (g : α → β) (f : β → Nat) (l : List α) :
    (l.map fun a => if p a then f (g a) else 0).sum = ((l.filterMap fun a => if p a then some (g a) else none).map f).sum := by
  induction l with
  | nil => rfl
  | cons a l ih => by_cases hp : p a <;> simp [hp, ih]

/-- A checksum command completes with its checksum in RESULT whether or not the check byte agrees (45_checksum.md R331, R333). -/
theorem exec_of_checkAgainst {i : Instr} {s : State} {c check : Byte} (h : commandReport i s = checkAgainst c check) :
    exec i s = .next (s.completedWith (if c = check then .ok else .corrupt) false (c.setWidth 32) s.dbuf) := by
  have hCommits : (if c = check then ErrCode.ok else .corrupt).commits = true := by split <;> rfl
  rw [exec_eq, h]
  exact congrArg _ (s.finish_result _ false none hCommits)

/-- Shifting the byte and reading its bits in turn feed the CRC register the same bits (45_checksum.md R330). -/
theorem crcBits_eq_foldl (n : Nat) (c x : Byte) :
    crcBits n c x = (List.range n).foldl
      (fun (c : Byte) k => if (c.getLsbD 0 ^^ x.getLsbD k) = true then (c >>> 1) ^^^ 0x8C#8 else c >>> 1) c := by
  induction n generalizing c x with
  | zero => rfl
  | succ n ih =>
    simp only [crcBits, crcShift, ih, List.range_succ_eq_map, List.foldl_cons, List.foldl_map, BitVec.getLsbD_xor,
      BitVec.getLsbD_ushiftRight, Nat.succ_eq_add_one, Nat.add_comm]

theorem crcOfBits_eq_crc8 (bytes : List Byte) : crcOfBits bytes = crc8 bytes :=
  congrArg (fun f => bytes.foldl f 0#8) (funext₂ fun c x => (crcBits_eq_foldl 8 c x).symm)

/-- The constant of R330 has bit 7 set, so the bit the register takes in stands in its bit 7. -/
theorem crcShift_getLsbD_seven (c x : Byte) : (crcShift c x).getLsbD 7 = (c ^^^ x).getLsbD 0 := by
  unfold crcShift
  split
  case isTrue hTaken => rw [hTaken]; simp
  case isFalse hClear => rw [eq_false_of_ne_true hClear]; simp

/-- A step of the CRC register can be undone: bit 7 tells which branch it took, and the rest of it is the shifted register. -/
theorem crcShift_left_inj {c d x : Byte} : crcShift c x = crcShift d x ↔ c = d := by
  refine ⟨fun h => ?_, congrArg (crcShift · x)⟩
  have hTaken : (c ^^^ x).getLsbD 0 = (d ^^^ x).getLsbD 0 := by
    rw [← crcShift_getLsbD_seven, h, crcShift_getLsbD_seven]
  have hLow : c.getLsbD 0 = d.getLsbD 0 := by simpa using hTaken
  have hHigh : c >>> 1 = d >>> 1 := by
    unfold crcShift at h
    rw [hTaken] at h
    split at h
    · exact (BitVec.xor_left_inj _).1 h
    · exact h
  refine BitVec.eq_of_getLsbD_eq fun k _ => ?_
  cases k with
  | zero => exact hLow
  | succ k => simpa [Nat.add_comm] using congrArg (·.getLsbD k) hHigh

theorem crcBits_left_inj {n : Nat} {c d x : Byte} : crcBits n c x = crcBits n d x ↔ c = d := by
  induction n generalizing c d x with
  | zero => rfl
  | succ n ih => rw [crcBits, crcBits, ih, crcShift_left_inj]

theorem crcByte_left_inj {c d x : Byte} : crcByte c x = crcByte d x ↔ c = d := crcBits_left_inj

theorem crcByte_self (x : Byte) : crcByte x x = 0#8 := by
  rw [crcByte_fold, BitVec.xor_self]
  rfl

/-- The residue of R331: a byte takes the CRC register to 0 exactly when the register held that byte. -/
theorem crcByte_eq_zero_iff {c x : Byte} : crcByte c x = 0#8 ↔ c = x := by
  rw [← crcByte_self x, crcByte_left_inj]

theorem crc8_append_singleton (bytes : List Byte) (check : Byte) : crc8 (bytes ++ [check]) = crcByte (crc8 bytes) check :=
  List.foldl_append

/-- Settles O33: the model's CRC is the one over bits, the command ends as every checksum command, and the residue is that of the
last byte. -/
theorem chkCrc8Validates : Obligations.ChkCrc8Validates := by
  refine ⟨fun w hOp => endsIllegal_of_anySel (fun _ => rfl) (fun _ => rfl) hOp, fun s n => ?checked, fun bytes check => ?residue⟩
  case checked =>
    intro c
    have hCrc : crc8 (s.latch.frame n) = c := by rw [Latch.frame_eq_filterMap, ← crcOfBits_eq_crc8]
    exact exec_of_checkAgainst (congrArg (checkAgainst · _) hCrc)
  case residue => rw [crcOfBits_eq_crc8, crcOfBits_eq_crc8, crc8_append_singleton, crcByte_eq_zero_iff]

theorem toNat_sum8 (bytes : List Byte) : (sum8 bytes).toNat = (bytes.map BitVec.toNat).sum % 256 := by
  rw [sum8, BitVec.toNat_ofNat, Nat.mod_mod]

/-- Settles O34: the sum over the covered indices is the sum over the covered bytes, and the byte it wraps to is its value. -/
theorem chkSum8Validates : Obligations.ChkSum8Validates := by
  refine ⟨fun w hOp => endsIllegal_of_anySel (fun _ => rfl) (fun _ => rfl) hOp, fun s n => ?checked⟩
  case checked =>
    intro c
    have hSum : (sum8 (s.latch.frame n)).toNat = c := by
      rw [toNat_sum8, Latch.frame_eq_filterMap, ← sum_map_ite_eq_sum_filterMap]
    rw [← hSum, BitVec.ofNat_toNat]
    simp only [BitVec.toNat_inj]
    exact exec_of_checkAgainst rfl

end Sys2Proof.Machine
end

section
/-! The interrupt (60_exceptions.md R353, R354): irq by its two factors, what a completion and any other edge out of reset do to
CTRL.IE and STATUS.DONE, and the writes that take irq down. -/

namespace Sys2Proof.Machine

theorem State.irq_of_done {s : State} (h : s.done = true) : s.irq = s.ie := by rw [State.irq, h, Bool.and_true]

theorem State.irq_of_not_done {s : State} (h : s.done = false) : s.irq = false := by rw [State.irq, h, Bool.and_false]

theorem State.irq_of_masked {s : State} (h : s.ie = false) : s.irq = false := by rw [State.irq, h, Bool.false_and]

/-- Every completion sets DONE, with any code (40_common.md R154). -/
@[simp] theorem State.finish_done (r : Report) (s : State) : (s.finish r).done = true := by
  rw [State.finish_eq, State.completedWith_done]

@[simp] theorem State.finish_ie (r : Report) (s : State) : (s.finish r).ie = s.ie := by
  rw [State.finish_eq, State.completedWith_ie]

@[simp] theorem State.advance_done (s : State) : s.advance.done = s.done := by rw [advance_eq]

@[simp] theorem State.advance_ie (s : State) : s.advance.ie = s.ie := by rw [advance_eq]

/-- The sequencer's move keeps CTRL.IE as the host's part of the edge leaves it, and DONE too but on a completion edge. -/
theorem step_ie_done {s : State} (h : Runs s) :
    ∃ t, step s = .next t ∧ t.ie = (s.hostEdge s.cycle).ie ∧
      ((s.seq = .run → s.wait ≠ 0) → t.done = (s.hostEdge s.cycle).done) := by
  cases hSeq : s.seq with
  | idle => exact ⟨_, step_idle h hSeq, rfl, fun _ => rfl⟩
  | run =>
    by_cases hWait : s.wait = 0
    · exact ⟨_, step_completion h hSeq hWait, State.finish_ie _ _, fun hNot => absurd hWait (hNot rfl)⟩
    · exact ⟨_, step_running h hSeq hWait, State.advance_ie _, fun _ => State.advance_done _⟩

/-- Settles O38: the two bits are those of CTRL and STATUS, and every completion is `State.finish` of a report. -/
theorem irqIsEnableAndDone : Obligations.IrqIsEnableAndDone := by
  refine ⟨fun s => ?level, fun i s => ?completed, fun s hRun hWait hRuns => ?completionEdge⟩
  case level =>
    have hIe : (s.readReg .ctrl).getLsbD 0 = s.ie := s.ctrlWord_getLsbD 0
    have hDone : (s.readReg .status).getLsbD 1 = s.done := s.statusWord_getLsbD 1
    rw [hIe, hDone, State.irq]
  case completed =>
    have hDone := s.finish_done (commandReport i s)
    exact ⟨_, exec_eq i s, hDone, (State.irq_of_done hDone).trans (s.finish_ie _)⟩
  case completionEdge => exact ⟨_, step_completion hRuns hRun hWait, State.finish_done _ _⟩

/-- Settles O39: each write acts on DONE or CTRL.IE in the host's part of the edge, and irq reads no other field. -/
theorem irqClearedOrMasked : Obligations.IrqClearedOrMasked := by
  refine ⟨fun s hNoEnd hWrite hBit => ?cleared, fun s hIdle hWrite => ?accepted, fun s hWrite hBit => ?masked, fun _ _ _ => rfl⟩
  case cleared =>
    obtain ⟨t, hStep, -, hDone⟩ := step_ie_done hWrite.runs
    have hHost : (s.hostEdge s.cycle).done = (s.done && !s.cycle.wdata.getLsbD 1) := by rw [hostEdge_writes hWrite]; rfl
    rw [hBit, Bool.not_true, Bool.and_false] at hHost
    exact ⟨t, hStep, State.irq_of_not_done ((hDone hNoEnd).trans hHost)⟩
  case accepted => exact ⟨_, step_accepts hIdle hWrite, State.irq_of_not_done rfl, rfl⟩
  case masked =>
    obtain ⟨t, hStep, hIe, hDone⟩ := step_ie_done hWrite.runs
    have hHostIe : (s.hostEdge s.cycle).ie = s.cycle.wdata.getLsbD 0 := by rw [hostEdge_writes hWrite]; rfl
    have hHostDone : (s.hostEdge s.cycle).done = s.done := by rw [hostEdge_writes hWrite]; rfl
    exact ⟨t, hStep, State.irq_of_masked (hIe.trans (hHostIe.trans hBit)), fun hNoEnd => (hDone hNoEnd).trans hHostDone⟩

end Sys2Proof.Machine
end

section
/-! Reset (70_reset_and_hazards.md R390 to R392): the step on an edge with `rst_n = 0`, what the host reads after it, and the
release of both lines; an edge out of reset keeps a command running until its completion edge. -/

namespace Sys2Proof.Machine

/-- A reset edge puts the reset values in place whatever the sequencer and the host were doing (R390, R391). -/
theorem step_reset {s : State} (hRst : s.cycle.rstN = false) (hStrobes : (s.cycle.rd && s.cycle.wr) = false) :
    step s = .next (s.resetEdge s.cycle) := by simp [step, hRst, hStrobes]

/-- The host reads of every register but LINE what it reads in the reset state; LINE shows the free synchronisers (R392). -/
theorem State.readReg_resetEdge (c : PortCycle) (s : State) {r : Reg} (h : r ≠ .line) :
    (s.resetEdge c).readReg r = State.reset.readReg r := by
  cases r with
  | line => exact absurd rfl h
  | _ => rfl

@[simp] theorem State.reset_driveLow (x : Line) : State.reset.driveLow x = false := by cases x <;> rfl

@[simp] theorem State.resetEdge_driveLow (s : State) (c : PortCycle) (x : Line) : (s.resetEdge c).driveLow x = false := by
  cases x <;> rfl

@[simp] theorem State.advance_seq (s : State) : s.advance.seq = s.seq := by rw [advance_eq]

theorem State.reset_dbufByte (i : BitVec 4) : State.reset.dbufByte i = 0#8 := by simp [State.dbufByte]

theorem State.reset_dbufWord (k : BitVec 2) : State.reset.dbufWord k = 0#32 := by simp [State.dbufWord, State.reset_dbufByte]

/-- The clocked part of an edge leaves both drives as they are (20_memory.md R82). -/
@[simp] theorem State.clockEdge_driveLow (s : State) (c : PortCycle) (x : Line) : (s.clockEdge c).driveLow x = s.driveLow x := by
  cases x <;> rfl

/-- Over two edges without a drive the pin of the first one passes both flip-flops (10_state.md R47). -/
theorem State.lineIn_clockEdge_clockEdge {s : State} (hFree : ∀ x, s.driveLow x = false) (c1 c2 : PortCycle) :
    ((s.clockEdge c1).clockEdge c2).lineIn .ow = c1.owIn ∧ ((s.clockEdge c1).clockEdge c2).lineIn .pw = c1.pwIn := by
  simp [State.lineIn, Synchroniser.shift, hFree]

/-- Settles O41: the reset edge reads nothing of the running command, and neither the host's part of an edge nor the sequencer's
advance leaves RUN. -/
theorem resetEdgeAborts : Obligations.ResetEdgeAborts := by
  refine ⟨fun s hRst hStrobes => ?reset, fun s hRun hWait hRuns => ?running⟩
  case reset =>
    exact ⟨_, step_reset hRst hStrobes, fun _ => s.readReg_resetEdge s.cycle, rfl, rfl, rfl, rfl, rfl, rfl, rfl, rfl, rfl,
      s.resetEdge_driveLow s.cycle .ow, s.resetEdge_driveLow s.cycle .pw, State.irq_of_not_done rfl⟩
  case running =>
    have hHost : (s.hostEdge s.cycle).seq = .run := (sameRun_hostEdge hRun s.cycle).seq.trans hRun
    exact ⟨_, step_running hRuns hRun hWait, (State.advance_seq _).trans hHost⟩

/-- Settles O42: the reset column field by field, the frame buffer by its bytes, and the pins by two shifts of the synchronisers. -/
theorem resetValuesInWindow : Obligations.ResetValuesInWindow :=
  ⟨⟨rfl, rfl, rfl, rfl, rfl, rfl, State.reset_dbufWord, rfl, rfl, rfl, rfl, rfl, rfl, rfl, State.reset_driveLow .ow,
    State.reset_driveLow .pw, State.irq_of_not_done rfl⟩, State.lineIn_clockEdge_clockEdge State.reset_driveLow⟩

end Sys2Proof.Machine
end

section
/-! The decoder against the encoder and against the opcode map (30_encoding.md R120 to R126). -/

namespace Sys2Proof

/-- The arm of the opcode map a well-formed command's OP selects gives the command back. -/
theorem decodeOp_op_sel {i : Instr} (h : i.WellFormed) : decodeOp i.op i.sel = .ok i := by
  cases i with
  | owRdbyte | pwFrame | bcdDec | bcdEnc | chkCrc8 | chkSum8 => exact decodeSel_ok.2 ⟨h, rfl⟩
  | _ => rfl

/-- Each arm of the opcode map gives a well-formed command with the arm's OP, and with the SEL it was given. -/
theorem fields_of_decodeOp_ok {op : BitVec 8} {sel : BitVec 4} {i : Instr} (h : decodeOp op sel = .ok i) :
    i.WellFormed ∧ op = i.op ∧ sel = i.sel := by
  unfold decodeOp at h
  split at h
  case h_1 hOp | h_2 hOp | h_3 hOp | h_4 hOp | h_5 hOp | h_7 hOp | h_8 hOp | h_12 hOp =>
    obtain ⟨hSel, rfl⟩ := decodePlain_ok.1 h
    exact ⟨rfl, BitVec.eq_of_toNat_eq hOp, hSel⟩
  case h_6 hOp | h_9 hOp | h_10 hOp | h_11 hOp | h_13 hOp | h_14 hOp =>
    obtain ⟨hWellFormed, rfl⟩ := decodeSel_ok.1 h
    exact ⟨hWellFormed, BitVec.eq_of_toNat_eq hOp, rfl⟩
  case h_15 => cases h

theorem decodeOp_ok_iff {op : BitVec 8} {sel : BitVec 4} {i : Instr} :
    decodeOp op sel = .ok i ↔ i.WellFormed ∧ op = i.op ∧ sel = i.sel := by
  refine ⟨fields_of_decodeOp_ok, ?_⟩
  rintro ⟨hWellFormed, rfl, rfl⟩
  exact decodeOp_op_sel hWellFormed

/-- Settles O1: a word is its three fields; RSV decides first, then the opcode map on OP and SEL. -/
theorem encodeDecodeAgree : Obligations.EncodeDecodeAgree := by
  intro w i
  obtain ⟨op, sel, rsv, rfl⟩ := word_split w
  rw [decode_cmdWord, encode, cmdWord_inj]
  by_cases hRsv : rsv = 0#20
  · simp [hRsv, decodeOp_ok_iff]
  · simp [hRsv]

/-- The rows that match a well-formed command's word, by the lemma of each command. -/
theorem rows_matching_encode (i : Instr) : Laws.EncodingMatchesItsRow.Statement i := by
  cases i with
  | nop => exact Laws.EncodingMatchesItsRow.nop
  | owReset => exact Laws.EncodingMatchesItsRow.owReset
  | owWrbit => exact Laws.EncodingMatchesItsRow.owWrbit
  | owRdbit => exact Laws.EncodingMatchesItsRow.owRdbit
  | owWrbyte => exact Laws.EncodingMatchesItsRow.owWrbyte
  | owRdbyte i => exact Laws.EncodingMatchesItsRow.owRdbyte i
  | pwSync => exact Laws.EncodingMatchesItsRow.pwSync
  | pwBit => exact Laws.EncodingMatchesItsRow.pwBit
  | pwFrame sel => exact Laws.EncodingMatchesItsRow.pwFrame sel
  | bcdDec sel => exact Laws.EncodingMatchesItsRow.bcdDec sel
  | bcdEnc sel => exact Laws.EncodingMatchesItsRow.bcdEnc sel
  | dow => exact Laws.EncodingMatchesItsRow.dow
  | chkCrc8 n => exact Laws.EncodingMatchesItsRow.chkCrc8 n
  | chkSum8 n => exact Laws.EncodingMatchesItsRow.chkSum8 n

/-- A word that decodes matches its command's row and no other row (30_encoding.md R124). -/
theorem row_of_decode_ok {w : Word} {i : Instr} (h : decode w = .ok i) :
    ∃ r ∈ opcodeMap, r.mnemonic = i.mnemonic ∧ r.admits w = true ∧ ∀ r' ∈ opcodeMap, r'.admits w = true → r' = r := by
  obtain ⟨hWellFormed, rfl⟩ := (encodeDecodeAgree w i).1 h
  obtain ⟨r, hRows, hName⟩ := List.map_eq_singleton_iff.1 (rows_matching_encode i hWellFormed)
  have hIff (r' : OpcodeRow) : r' ∈ opcodeMap ∧ r'.admits (encode i) = true ↔ r' = r := by
    exact (List.mem_filter (p := fun r : OpcodeRow => r.admits (encode i))).symm.trans (by rw [hRows, List.mem_singleton])
  obtain ⟨hMem, hAdmits⟩ := (hIff r).2 rfl
  exact ⟨r, hMem, hName, hAdmits, fun r' hMem' hAdmits' => (hIff r').1 ⟨hMem', hAdmits'⟩⟩

/-- Every row fixes OP and RSV and some bits of SEL, and the arm of its OP takes every SEL with those bits 0. -/
theorem opcodeMap_rows : ∀ r ∈ opcodeMap, r.pattern = cmdWord (cmdOp r.pattern) 0#4 0#20 ∧
    r.mask = cmdWord 0xFF#8 (cmdSel r.mask) 0xFFFFF#20 ∧
    ∀ sel, sel &&& cmdSel r.mask = 0#4 → (decodeOp (cmdOp r.pattern) sel).isOk = true := by decide

/-- The opcode map lists nothing that the decoder refuses (30_encoding.md R126). -/
theorem decode_isOk_of_admits {w : Word} {r : OpcodeRow} (hMem : r ∈ opcodeMap) (h : r.admits w = true) :
    (decode w).isOk = true := by
  obtain ⟨hPattern, hMask, hArm⟩ := opcodeMap_rows r hMem
  obtain ⟨op, sel, rsv, rfl⟩ := word_split w
  have hFields : cmdWord op sel rsv &&& r.mask = r.pattern := eq_of_beq h
  rw [hMask, hPattern, cmdWord_and, cmdWord_inj] at hFields
  obtain ⟨hOp, hSel, hRsv⟩ := hFields
  have hOp' : op = cmdOp r.pattern := (BitVec.and_allOnes (x := op)).symm.trans hOp
  have hRsv' : rsv = 0#20 := (BitVec.and_allOnes (x := rsv)).symm.trans hRsv
  rw [decode_cmdWord, if_pos hRsv', hOp']
  exact hArm sel hSel

/-- Settles O2: a decoded word is its command's encoding, and a word that matches a row decodes. -/
theorem everyWordIsOneRowOrReserved : Obligations.EveryWordIsOneRowOrReserved := by
  refine fun w => ⟨fun i hOk => row_of_decode_ok hOk, fun e hError r hMem => eq_false_of_ne_true fun hAdmits => ?_⟩
  have hOk := decode_isOk_of_admits hMem hAdmits
  rw [hError] at hOk
  exact Bool.false_ne_true hOk

theorem decode_encode {i : Instr} (h : i.WellFormed) : decode (encode i) = .ok i := (encodeDecodeAgree _ _).2 ⟨h, rfl⟩

/-- Settles O3: each word is the encoding of its command. -/
theorem opcodeWordsDecode : Obligations.OpcodeWordsDecode :=
  ⟨decode_encode (i := .nop) rfl, decode_encode (i := .owRdbyte 15#4) rfl, decode_encode (i := .pwFrame 1#4) rfl,
    decode_encode (i := .bcdDec 7#4) rfl, decode_encode (i := .dow) rfl, decode_encode (i := .chkCrc8 8#4) rfl,
    decode_encode (i := .chkSum8 4#4) rfl⟩

end Sys2Proof
end

section
/-! The sequencer's part of an edge, case by case: what `advance` does in each phase, and what accept, completion and the host's
part of an edge leave (40_common.md R151 to R156, 10_state.md R45 to R51). -/

namespace Sys2Proof.Machine

theorem advance_untimed {s : State} (h : s.phase = .untimed) : s.advance = { s with wait := s.wait - 1 } := by
  simp only [State.advance, h]

theorem advance_issue_last {s : State} {n : Nat} (h : s.phase = .issue n) (hLast : n ≤ 1) :
    s.advance = State.startTick 0 { s with wait := s.wait - 1 } := by
  simp only [State.advance, h, if_pos hLast]

theorem advance_issue {s : State} {n : Nat} (h : s.phase = .issue n) (hMore : ¬ n ≤ 1) :
    s.advance = { s with wait := s.wait - 1, phase := .issue (n - 1) } := by
  simp only [State.advance, h, if_neg hMore]

theorem advance_boundary {s : State} (h : s.phase = .ticking) (hBoundary : s.prescaler = 0) :
    s.advance = State.startTick (s.tick + 1) { s with wait := s.wait - 1 } := by
  simp only [State.advance, h, if_pos hBoundary]

theorem advance_within_tick {s : State} (h : s.phase = .ticking) (hWithin : s.prescaler ≠ 0) :
    s.advance = { s with wait := s.wait - 1 } := by
  simp only [State.advance, h, if_neg hWithin]

@[simp] theorem State.advance_wait (s : State) : s.advance.wait = s.wait - 1 := by rw [advance_eq]
@[simp] theorem State.advance_latch (s : State) : s.advance.latch = s.latch := by rw [advance_eq]
@[simp] theorem State.advance_cmd (s : State) : s.advance.cmd = s.cmd := by rw [advance_eq]
@[simp] theorem State.advance_dbuf (s : State) : s.advance.dbuf = s.dbuf := by rw [advance_eq]
@[simp] theorem State.advance_err (s : State) : s.advance.err = s.err := by rw [advance_eq]
@[simp] theorem State.advance_wbusy (s : State) : s.advance.wbusy = s.wbusy := by rw [advance_eq]
@[simp] theorem State.advance_owDrv (s : State) : s.advance.owDrv = s.owDrv := by rw [advance_eq]
@[simp] theorem State.advance_pwDrv (s : State) : s.advance.pwDrv = s.pwDrv := by rw [advance_eq]
@[simp] theorem State.advance_staged (s : State) : s.advance.staged = s.staged := by rw [advance_eq]
@[simp] theorem State.advance_ovfSeen (s : State) : s.advance.ovfSeen = s.ovfSeen := by rw [advance_eq]
@[simp] theorem State.advance_prescaler (s : State) : s.advance.prescaler = s.prescaler := by rw [advance_eq]
@[simp] theorem State.advance_port (s : State) : s.advance.port = s.port := by rw [advance_eq]
@[simp] theorem State.advance_waves (s : State) : s.advance.waves = s.waves := by rw [advance_eq]
@[simp] theorem State.advance_draw (s : State) : s.advance.draw = s.draw := by rw [advance_eq]

@[simp] theorem State.finish_seq (r : Report) (s : State) : (s.finish r).seq = .idle := by rw [State.finish_eq]; rfl
@[simp] theorem State.finish_cmd (r : Report) (s : State) : (s.finish r).cmd = s.cmd := by rw [State.finish_eq]; rfl
@[simp] theorem State.finish_latch (r : Report) (s : State) : (s.finish r).latch = s.latch := by rw [State.finish_eq]; rfl
@[simp] theorem State.finish_ovf (r : Report) (s : State) : (s.finish r).ovf = (s.ovf || r.ovfSeen) := by
  rw [State.finish_eq]; rfl
@[simp] theorem State.finish_wbusy (r : Report) (s : State) : (s.finish r).wbusy = s.wbusy := by rw [State.finish_eq]; rfl
@[simp] theorem State.finish_staged (r : Report) (s : State) : (s.finish r).staged = [] := by rw [State.finish_eq]; rfl
@[simp] theorem State.finish_ovfSeen (r : Report) (s : State) : (s.finish r).ovfSeen = false := by rw [State.finish_eq]; rfl
@[simp] theorem State.finish_prescaler (r : Report) (s : State) : (s.finish r).prescaler = s.prescaler := by
  rw [State.finish_eq]; rfl
@[simp] theorem State.finish_seqDrive (r : Report) (s : State) (x : Line) : (s.finish r).seqDrive x = false := by
  rw [State.finish_eq]; cases x <;> rfl
@[simp] theorem State.finish_manualDrive (r : Report) (s : State) (x : Line) : (s.finish r).manualDrive x = s.manualDrive x := by
  rw [State.finish_eq]; cases x <;> rfl

theorem seqDrive_congr {s s' : State} (hOw : s.seqDrvOw = s'.seqDrvOw) (hPw : s.seqDrvPw = s'.seqDrvPw) (x : Line) :
    s.seqDrive x = s'.seqDrive x := by
  cases x with
  | ow => exact hOw
  | pw => exact hPw

@[simp] theorem State.clockEdge_seqDrive (c : PortCycle) (s : State) (x : Line) : (s.clockEdge c).seqDrive x = s.seqDrive x :=
  seqDrive_congr rfl rfl x

@[simp] theorem State.accept_seqDrive (w : Word) (s : State) (x : Line) : (s.accept w).seqDrive x = s.seqDrive x :=
  seqDrive_congr rfl rfl x

/-- The latched word's report reads the latched set, the manual drive bits and the line levels (40_common.md R162). -/
theorem latchedReport_congr {s s' : State} (hLatch : s.latch = s'.latch) (hOw : s.owDrv = s'.owDrv) (hPw : s.pwDrv = s'.pwDrv)
    (hExt : s.ext = s'.ext) : s.latchedReport = s'.latchedReport := by
  unfold State.latchedReport
  rw [hLatch]
  split
  · exact commandReport_congr hLatch hOw hPw hExt _
  · rfl

@[simp] theorem latchedReport_advance (s : State) : s.advance.latchedReport = s.latchedReport :=
  latchedReport_congr (by simp) (by simp) (by simp) (State.ext_congr (by simp) (by simp))

@[simp] theorem latchedDrive_advance (s : State) : s.advance.latchedDrive = s.latchedDrive := by
  funext x t
  simp only [State.latchedDrive, State.advance_latch]

@[simp] theorem latchedReport_schedule (s : State) : s.schedule.latchedReport = s.latchedReport :=
  latchedReport_congr rfl rfl rfl (State.ext_congr rfl rfl)

theorem latchedReport_accept (w : Word) (s : State) : (s.accept w).latchedReport = (s.takeCommand w).latchedReport :=
  latchedReport_schedule _

/-- What accept sets the countdown to, for a command without ticks (40_common.md R156). -/
theorem accept_untimed {s : State} {w : Word} (h : (s.accept w).latchedReport.ticks = none) :
    (s.accept w).phase = .untimed ∧ (s.accept w).wait + 1 = Config.computeLat := by
  rw [latchedReport_accept] at h
  rw [State.accept, schedule_untimed h]
  exact ⟨rfl, rfl⟩

theorem issueLat_pos : 1 ≤ Config.issueLat := Nat.le_add_left _ _

/-- What accept sets the countdown to, for a line command of duration `d` (40_common.md R156). -/
theorem accept_timed {s : State} {w : Word} {d : Nat} (h : (s.accept w).latchedReport.ticks = some d) :
    (s.accept w).phase = .issue s.leadEdges ∧ (s.accept w).wait + 1 = s.leadEdges + d * Config.clkPerUs := by
  rw [latchedReport_accept] at h
  have hLead : 1 ≤ s.leadEdges := (startDelay_spec _ _ s.prescaler clkPerUs_pos issueLat_pos).1
  rw [State.accept, schedule_timed h]
  refine ⟨rfl, Nat.sub_add_cancel ?_⟩
  exact hLead.trans (Nat.le_add_right _ _)

theorem accept_phase_ne_ticking (w : Word) (s : State) : (s.accept w).phase ≠ .ticking := by
  cases hTicks : (s.accept w).latchedReport.ticks with
  | none => simp [(accept_untimed hTicks).1]
  | some d => simp [(accept_timed hTicks).1]

/-- The lead lies from `ISSUE_LAT` to less than one tick above it (40_common.md R156). -/
theorem startDelay_bounds (lat p : Nat) {k : Nat} (hk : 0 < k) : lat ≤ startDelay k lat p ∧ startDelay k lat p < lat + k :=
  ⟨Nat.le_add_right _ _, Nat.add_lt_add_left (Nat.mod_lt _ hk) lat⟩

theorem nextPrescaler_of_lt {p : Nat} (h : p + 1 < Config.clkPerUs) : nextPrescaler p = p + 1 := if_pos h

theorem nextPrescaler_of_wrap {p : Nat} (h : p + 1 = Config.clkPerUs) : nextPrescaler p = 0 := if_neg (by omega)

/-- The prescaler marks a boundary exactly when it wraps (10_state.md R51). -/
theorem nextPrescaler_eq_zero_iff {p : Nat} (h : p < Config.clkPerUs) : nextPrescaler p = 0 ↔ p + 1 = Config.clkPerUs := by
  refine ⟨fun hZero => ?_, nextPrescaler_of_wrap⟩
  by_contra hNe
  rw [nextPrescaler_of_lt (by omega)] at hZero
  omega

theorem writeReg_port (b : Bool) (v : Word) (r : Reg) (s : State) : (s.writeReg b v r).port = s.port := by
  cases r with
  | cmd | line | dbuf => cases b <;> rfl
  | _ => rfl

/-- Each edge out of reset takes one port cycle off the list. -/
theorem hostEdge_port (c : PortCycle) (s : State) : (s.hostEdge c).port = s.port.tail := by
  unfold State.hostEdge
  split
  · rw [writeReg_port]; rfl
  · rfl

/-- No host write stages anything: accept clears what is staged (40_common.md R151), nothing else touches it. -/
theorem writeReg_staged_nil (b : Bool) (v : Word) (r : Reg) {s : State} (hStaged : s.staged = []) (hSeen : s.ovfSeen = false) :
    (s.writeReg b v r).staged = [] ∧ (s.writeReg b v r).ovfSeen = false := by
  cases r with
  | cmd =>
    cases b with
    | false => exact ⟨rfl, rfl⟩
    | true => exact ⟨hStaged, hSeen⟩
  | line | dbuf => cases b <;> exact ⟨hStaged, hSeen⟩
  | _ => exact ⟨hStaged, hSeen⟩

theorem hostEdge_staged_nil (c : PortCycle) {s : State} (hStaged : s.staged = []) (hSeen : s.ovfSeen = false) :
    (s.hostEdge c).staged = [] ∧ (s.hostEdge c).ovfSeen = false := by
  unfold State.hostEdge
  split
  · exact writeReg_staged_nil _ _ _ hStaged hSeen
  · exact ⟨hStaged, hSeen⟩

/-- A host write can clear DONE and never sets it. -/
theorem writeReg_busy_done (v : Word) (r : Reg) {s : State} (hDone : s.done = false) : (s.writeReg true v r).done = false := by
  cases r with
  | status => simp [State.writeReg, hDone]
  | _ => exact hDone

theorem hostEdge_run_done (c : PortCycle) {s : State} (hRun : s.seq = .run) (hDone : s.done = false) :
    (s.hostEdge c).done = false := by
  unfold State.hostEdge
  rw [(State.busy_eq_true s).2 hRun]
  split
  · exact writeReg_busy_done _ _ hDone
  · exact hDone

end Sys2Proof.Machine
end

section
/-! The sequencer invariant and the countdown invariant (log entries 2, 9 and 10): each holds at reset, and each kind of edge keeps
it. -/

namespace Sys2Proof.Machine

/-- With no command running the invariant asks for the timebase, for nothing staged and for both lines released. -/
theorem sequencerInv_of_idle {t : State} (hPrescaler : t.prescaler < Config.clkPerUs) (hStaged : t.staged = [])
    (hSeen : t.ovfSeen = false) (hIdle : t.seq = .idle) (hDrive : ∀ x, t.seqDrive x = false) : SequencerInv t := by
  have hNotRun : t.seq ≠ .run := by simp [hIdle]
  exact ⟨hPrescaler, hStaged, hSeen, fun _ => hDrive, fun h => absurd h hNotRun, fun h => absurd h hNotRun,
    fun h => absurd h hNotRun, fun h => absurd h hNotRun, fun h => absurd h hNotRun⟩

/-- Settles O44: no command runs in the reset state, and both lines are released. -/
theorem resetHasSequencerInv : Obligations.ResetHasSequencerInv :=
  sequencerInv_of_idle clkPerUs_pos rfl rfl rfl fun x => by cases x <;> rfl

theorem sequencerInv_resetEdge (c : PortCycle) (s : State) : SequencerInv (s.resetEdge c) :=
  sequencerInv_of_idle clkPerUs_pos rfl rfl rfl fun x => by cases x <;> rfl

theorem hostEdge_prescaler_lt (c : PortCycle) (s : State) : (s.hostEdge c).prescaler < Config.clkPerUs := by
  rw [hostEdge_prescaler]
  exact nextPrescaler_lt _

theorem sequencerInv_completion (c : PortCycle) (r : Report) (s : State) : SequencerInv ((s.hostEdge c).finish r) :=
  sequencerInv_of_idle (by simpa using hostEdge_prescaler_lt c s) (by simp) (by simp) (by simp) (by simp)

/-- The host's part of an edge keeps the invariant of a running command: it reads back what the command latched and cannot set
DONE (10_state.md R48). -/
theorem sequencerInv_hostEdge_run (c : PortCycle) {s : State} (hInv : SequencerInv s) (hRun : s.seq = .run) :
    SequencerInv (s.hostEdge c) := by
  have hSame := sameRun_hostEdge hRun c
  obtain ⟨hDone, hErr⟩ := hInv.run_flags hRun
  have hHostRun := hSame.seq.trans hRun
  refine ⟨hostEdge_prescaler_lt c s, hSame.staged.trans hInv.staged_nil, hSame.ovfSeen.trans hInv.ovfSeen_false,
    fun hIdle => ?_, fun _ => ⟨hostEdge_run_done c hRun hDone, hSame.err.trans hErr⟩, fun _ => ?_, fun _ => ?_,
    fun _ hPhase x => ?_, fun _ hPhase x => ?_⟩
  · simp [hHostRun] at hIdle
  · rw [hSame.latch, hSame.cmd]
    exact hInv.run_word hRun
  · rw [hSame.latch, hSame.dbuf]
    exact hInv.run_dbuf hRun
  · rw [hSame.seqDrive, hSame.drive, hSame.tick]
    exact hInv.run_drive hRun (hSame.phase.symm.trans hPhase) x
  · rw [hSame.seqDrive]
    exact hInv.run_before hRun (fun h => hPhase (hSame.phase.trans h)) x

/-- What a move of the sequencer must do to the drives: in a tick they are the body's, before tick 0 they are released. -/
structure DrivesAsPhase (s t : State) : Prop where
  ticking : t.phase = .ticking → ∀ x, t.seqDrive x = s.latchedDrive x t.tick
  before : t.phase ≠ .ticking → ∀ x, t.seqDrive x = false

theorem drivesAsPhase_startTick (tick wait : Nat) (s : State) :
    DrivesAsPhase s (State.startTick tick { s with wait := wait }) :=
  ⟨fun _ x => startTick_seqDrive { s with wait := wait } tick x, fun hPhase => absurd rfl hPhase⟩

/-- An edge inside a tick, or before tick 0, leaves the drives. -/
theorem drivesAsPhase_advance {s : State} (hInv : SequencerInv s) (hRun : s.seq = .run) : DrivesAsPhase s s.advance := by
  cases hPhase : s.phase with
  | untimed =>
    rw [advance_untimed hPhase]
    have hBefore := hInv.run_before hRun (by simp [hPhase])
    exact ⟨fun h => by simp [hPhase] at h, fun _ x => (seqDrive_congr rfl rfl x).trans (hBefore x)⟩
  | issue n =>
    by_cases hLast : n ≤ 1
    · rw [advance_issue_last hPhase hLast]
      exact drivesAsPhase_startTick _ _ _
    · rw [advance_issue hPhase hLast]
      have hBefore := hInv.run_before hRun (by simp [hPhase])
      exact ⟨fun h => by simp at h, fun _ x => (seqDrive_congr rfl rfl x).trans (hBefore x)⟩
  | ticking =>
    by_cases hBoundary : s.prescaler = 0
    · rw [advance_boundary hPhase hBoundary]
      exact drivesAsPhase_startTick _ _ _
    · rw [advance_within_tick hPhase hBoundary]
      have hDrive := hInv.run_drive hRun hPhase
      exact ⟨fun _ x => (seqDrive_congr rfl rfl x).trans (hDrive x), fun h => absurd hPhase h⟩

theorem sequencerInv_advance {s : State} (hInv : SequencerInv s) (hRun : s.seq = .run) : SequencerInv s.advance := by
  obtain ⟨hTicking, hBefore⟩ := drivesAsPhase_advance hInv hRun
  refine ⟨by simpa using hInv.prescaler_lt, by simpa using hInv.staged_nil, by simpa using hInv.ovfSeen_false,
    fun hIdle => ?_, fun _ => by simpa using hInv.run_flags hRun, fun _ => by simpa using hInv.run_word hRun,
    fun _ => by simpa using hInv.run_dbuf hRun, fun _ => by simpa using hTicking, fun _ => hBefore⟩
  simp [hRun] at hIdle

/-- An accepted command latches what CMD and DBUF hold, and starts before its tick 0 (40_common.md R151, R152). -/
theorem sequencerInv_accept (w : Word) {s : State} (hPrescaler : s.prescaler < Config.clkPerUs)
    (hReleased : ∀ x, s.seqDrive x = false) : SequencerInv (s.accept w) := by
  have hDrive (x : Line) : (s.accept w).seqDrive x = false := (s.accept_seqDrive w x).trans (hReleased x)
  exact ⟨hPrescaler, rfl, rfl, fun _ => hDrive, fun _ => ⟨rfl, rfl⟩, fun _ => latch_word_accept w s, fun _ => rfl,
    fun _ h => absurd h (accept_phase_ne_ticking w s), fun _ _ => hDrive⟩

theorem sequencerInv_hostEdge_idle (c : PortCycle) {s : State} (hInv : SequencerInv s) (hIdle : s.seq = .idle) :
    SequencerInv (s.hostEdge c) := by
  have hReleased := hInv.idle_released hIdle
  rcases hostEdge_idle_cases c hIdle with ⟨w, hAccept⟩ | ⟨hStaysIdle, hDrive⟩
  · rw [hAccept]
    exact sequencerInv_accept w (nextPrescaler_lt _) fun x => (s.clockEdge_seqDrive c x).trans (hReleased x)
  · obtain ⟨hStaged, hSeen⟩ := hostEdge_staged_nil c hInv.staged_nil hInv.ovfSeen_false
    exact sequencerInv_of_idle (hostEdge_prescaler_lt c s) hStaged hSeen hStaysIdle fun x => (hDrive x).trans (hReleased x)

/-- Settles O43: by the kinds of edges of `step_cases`, each of which keeps the invariant. -/
theorem stepKeepsSequencerInv : Obligations.StepKeepsSequencerInv := by
  intro s t hInv hStep
  rcases step_cases s with ⟨-, hRefused⟩ | ⟨-, -, hReset⟩ | ⟨-, -, -, hEnds⟩ | ⟨-, hRun, -, hRuns⟩ | ⟨-, hIdle, hStays⟩
  · cases hRefused.symm.trans hStep
  · cases hReset.symm.trans hStep
    exact sequencerInv_resetEdge _ _
  · cases hEnds.symm.trans hStep
    exact sequencerInv_completion _ _ _
  · cases hRuns.symm.trans hStep
    exact sequencerInv_advance (sequencerInv_hostEdge_run _ hInv hRun) ((sameRun_hostEdge hRun _).seq.trans hRun)
  · cases hStays.symm.trans hStep
    exact sequencerInv_hostEdge_idle _ hInv hIdle

/-- With no command running the countdown invariant asks only for the timebase. -/
theorem countdownInv_of_idle {t : State} (hPrescaler : t.prescaler < Config.clkPerUs) (hIdle : t.seq = .idle) :
    CountdownInv t := by
  have hNotRun : t.seq ≠ .run := by simp [hIdle]
  exact ⟨hPrescaler, fun h => absurd h hNotRun, fun h => absurd h hNotRun, fun h => absurd h hNotRun⟩

/-- Settles O46: no command runs in the reset state. -/
theorem resetHasCountdownInv : Obligations.ResetHasCountdownInv := countdownInv_of_idle clkPerUs_pos rfl

theorem countdownInv_of_untimed {t : State} (hPrescaler : t.prescaler < Config.clkPerUs) (hPhase : t.phase = .untimed)
    (hTicks : t.latchedReport.ticks = none) (hWait : t.wait < Config.computeLat) : CountdownInv t :=
  ⟨hPrescaler, fun _ _ => ⟨hTicks, hWait⟩, fun _ _ h => (nomatch hPhase.symm.trans h),
    fun _ h => (nomatch hPhase.symm.trans h)⟩

theorem countdownInv_of_issue {t : State} {n d : Nat} (hPrescaler : t.prescaler < Config.clkPerUs) (hPhase : t.phase = .issue n)
    (hTicks : t.latchedReport.ticks = some d) (hPos : 1 ≤ n) (hBoundary : (t.prescaler + n) % Config.clkPerUs = 0)
    (hWait : t.wait + 1 = n + d * Config.clkPerUs) : CountdownInv t := by
  refine ⟨hPrescaler, fun _ h => (nomatch hPhase.symm.trans h), fun _ m h => ?_, fun _ h => (nomatch hPhase.symm.trans h)⟩
  obtain rfl : n = m := Phase.issue.inj (hPhase.symm.trans h)
  exact ⟨hPos, hBoundary, d, hTicks, hWait⟩

theorem countdownInv_of_ticking {t : State} {d : Nat} (hPrescaler : t.prescaler < Config.clkPerUs) (hPhase : t.phase = .ticking)
    (hTicks : t.latchedReport.ticks = some d) (hTick : t.tick < d)
    (hWait : t.wait + 1 + t.prescaler = (d - t.tick) * Config.clkPerUs) : CountdownInv t :=
  ⟨hPrescaler, fun _ h => (nomatch hPhase.symm.trans h), fun _ _ h => (nomatch hPhase.symm.trans h),
    fun _ _ => ⟨d, hTicks, hTick, hWait⟩⟩

/-- Accept sets the countdown the invariant asks for: `COMPUTE_LAT` edges, or the lead to a boundary and the ticks after it. -/
theorem countdownInv_accept (w : Word) {s : State} (hPrescaler : s.prescaler < Config.clkPerUs) :
    CountdownInv (s.accept w) := by
  cases hTicks : (s.accept w).latchedReport.ticks with
  | none =>
    obtain ⟨hPhase, hWait⟩ := accept_untimed hTicks
    exact countdownInv_of_untimed hPrescaler hPhase hTicks (by omega)
  | some d =>
    obtain ⟨hPhase, hWait⟩ := accept_timed hTicks
    obtain ⟨hLead, hBoundary⟩ := startDelay_spec _ _ s.prescaler clkPerUs_pos issueLat_pos
    exact countdownInv_of_issue hPrescaler hPhase hTicks hLead hBoundary hWait

/-- One edge nearer to a boundary `n + 1` edges away: the timebase moves towards it. -/
theorem nextPrescaler_add_mod {p n : Nat} (hLt : p < Config.clkPerUs) (h : (p + (n + 1)) % Config.clkPerUs = 0) :
    (nextPrescaler p + n) % Config.clkPerUs = 0 := by
  by_cases hWrap : p + 1 = Config.clkPerUs
  · rw [nextPrescaler_of_wrap hWrap, Nat.zero_add, ← Nat.add_mod_left, ← hWrap]
    rw [← hWrap] at h
    rwa [Nat.add_assoc, Nat.add_comm 1 n]
  · rw [nextPrescaler_of_lt (by omega), Nat.add_assoc, Nat.add_comm 1 n]
    exact h

/-- Where the boundary is the next edge, the timebase wraps on it. -/
theorem wraps_of_succ_mod {p : Nat} (hLt : p < Config.clkPerUs) (h : (p + 1) % Config.clkPerUs = 0) :
    p + 1 = Config.clkPerUs := by
  by_contra hNe
  rw [Nat.mod_eq_of_lt (by omega)] at h
  omega

/-- At a boundary with edges left, `k` ticks from the end, the countdown holds of `k - 1` ticks: more than one is left. -/
theorem ticks_left_at_boundary {wait p k : Nat} (hWrap : p + 1 = Config.clkPerUs) (hWait : wait ≠ 0)
    (h : wait + 1 + p = k * Config.clkPerUs) : 2 ≤ k ∧ wait = (k - 1) * Config.clkPerUs := by
  have hTwo : 2 ≤ k := by
    by_contra hLe
    have hBound : k * Config.clkPerUs ≤ 1 * Config.clkPerUs := Nat.mul_le_mul_right _ (by omega)
    omega
  obtain ⟨j, rfl⟩ : ∃ j, k = j + 1 := ⟨k - 1, by omega⟩
  rw [Nat.succ_mul] at h
  exact ⟨hTwo, by rw [Nat.add_sub_cancel]; omega⟩

/-- A running command's countdown over one edge that is not its completion edge; `e` is the state after the host's part. -/
theorem countdownInv_advance {s e : State} (hInv : CountdownInv s) (hRun : s.seq = .run) (hWait : s.wait ≠ 0)
    (hSame : SameRun s e) (hPrescaler : e.prescaler = nextPrescaler s.prescaler) : CountdownInv e.advance := by
  have hLt := hInv.prescaler_lt
  have hReport : e.advance.latchedReport = s.latchedReport := by rw [latchedReport_advance, hSame.report]
  have hLeft : e.advance.wait = s.wait - 1 := by rw [State.advance_wait, hSame.wait]
  have hClock : e.advance.prescaler = nextPrescaler s.prescaler := by rw [State.advance_prescaler, hPrescaler]
  have hBase : e.advance.prescaler < Config.clkPerUs := by rw [hClock]; exact nextPrescaler_lt _
  have hEdge := hSame.phase
  cases hPhase : s.phase with
  | untimed =>
    rw [hPhase] at hEdge
    obtain ⟨hTicks, hLess⟩ := hInv.untimed hRun hPhase
    have hNext : e.advance.phase = .untimed := by rw [advance_untimed hEdge]; exact hEdge
    exact countdownInv_of_untimed hBase hNext (hReport ▸ hTicks) (by omega)
  | issue n =>
    rw [hPhase] at hEdge
    obtain ⟨hPos, hBoundary, d, hTicks, hCount⟩ := hInv.issue hRun n hPhase
    by_cases hLast : n ≤ 1
    · obtain rfl : n = 1 := by omega
      have hWrap := wraps_of_succ_mod hLt hBoundary
      have hTick : e.advance.tick = 0 := by rw [advance_issue_last hEdge hLast]; rfl
      have hNext : e.advance.phase = .ticking := by rw [advance_issue_last hEdge hLast]; rfl
      have hSome : 0 < d := Nat.pos_of_ne_zero fun h0 => by rw [h0] at hCount; omega
      refine countdownInv_of_ticking hBase hNext (hReport ▸ hTicks) (hTick ▸ hSome) ?_
      rw [hTick, hLeft, hClock, nextPrescaler_of_wrap hWrap, Nat.sub_zero]
      omega
    · obtain ⟨m, rfl⟩ : ∃ m, n = m + 1 := ⟨n - 1, by omega⟩
      have hNext : e.advance.phase = .issue m := by rw [advance_issue hEdge hLast]; rfl
      have hNearer := hClock ▸ nextPrescaler_add_mod hLt hBoundary
      exact countdownInv_of_issue hBase hNext (hReport ▸ hTicks) (by omega) hNearer (by omega)
  | ticking =>
    rw [hPhase] at hEdge
    obtain ⟨d, hTicks, hBefore, hCount⟩ := hInv.ticking hRun hPhase
    have hIff := nextPrescaler_eq_zero_iff hLt
    by_cases hWrap : s.prescaler + 1 = Config.clkPerUs
    · have hMove := advance_boundary hEdge (hPrescaler.trans (hIff.2 hWrap))
      have hTick : e.advance.tick = s.tick + 1 := by rw [hMove, ← hSame.tick]; rfl
      have hNext : e.advance.phase = .ticking := by rw [hMove]; rfl
      obtain ⟨hTwo, hRest⟩ := ticks_left_at_boundary hWrap hWait hCount
      refine countdownInv_of_ticking hBase hNext (hReport ▸ hTicks) (by omega) ?_
      rw [hTick, hLeft, hClock, hIff.2 hWrap, ← Nat.sub_sub]
      omega
    · have hMove := advance_within_tick hEdge (fun h => hWrap (hIff.1 (hPrescaler.symm.trans h)))
      have hTick : e.advance.tick = s.tick := by rw [hMove]; exact hSame.tick
      have hNext : e.advance.phase = .ticking := by rw [hMove]; exact hEdge
      refine countdownInv_of_ticking hBase hNext (hReport ▸ hTicks) (by omega) ?_
      rw [hTick, hLeft, hClock, nextPrescaler_of_lt (by omega)]
      omega

/-- Settles O45: by the kinds of edges of `step_cases`; accept sets the countdown, and each edge of the run moves it on. -/
theorem stepKeepsCountdownInv : Obligations.StepKeepsCountdownInv := by
  intro s t hInv hStep
  rcases step_cases s with ⟨-, hRefused⟩ | ⟨-, -, hReset⟩ | ⟨-, -, -, hEnds⟩ | ⟨-, hRun, hWait, hRuns⟩ | ⟨-, hIdle, hStays⟩
  · cases hRefused.symm.trans hStep
  · cases hReset.symm.trans hStep
    exact countdownInv_of_idle clkPerUs_pos rfl
  · cases hEnds.symm.trans hStep
    exact countdownInv_of_idle (by simpa using hostEdge_prescaler_lt _ s) (by simp)
  · cases hRuns.symm.trans hStep
    exact countdownInv_advance hInv hRun hWait (sameRun_hostEdge hRun _) (hostEdge_prescaler _ _)
  · cases hStays.symm.trans hStep
    rcases hostEdge_idle_cases s.cycle hIdle with ⟨w, hAccept⟩ | ⟨hStaysIdle, -⟩
    · rw [hAccept]
      exact countdownInv_accept w (nextPrescaler_lt _)
    · exact countdownInv_of_idle (hostEdge_prescaler_lt _ s) hStaysIdle

end Sys2Proof.Machine
end

section
/-! Edges of a command's life as steps: its accept, its run, its completion, and what the host's write does on them (40_common.md
R150 to R156, 60_exceptions.md R355; log entries 1, 2, 10, 12 and 13). -/

namespace Sys2Proof.Machine

/-- A step of a running command is one of two moves of the sequencer after the host's part of the edge. -/
theorem step_run {s : State} (h : Runs s) (hRun : s.seq = .run) :
    ∃ t, step s = .next t ∧
      (t = (s.hostEdge s.cycle).finish s.latchedReport ∨ t = (s.hostEdge s.cycle).advance) := by
  by_cases hWait : s.wait = 0
  · exact ⟨_, step_completion h hRun hWait, .inl rfl⟩
  · exact ⟨_, step_running h hRun hWait, .inr rfl⟩

/-- Neither move of the sequencer changes CMD, the latched set or WBUSY. -/
theorem step_run_keeps {s : State} (h : Runs s) (hRun : s.seq = .run) :
    ∃ t, step s = .next t ∧ t.cmd = s.cmd ∧ t.latch = s.latch ∧ t.wbusy = (s.hostEdge s.cycle).wbusy := by
  have hSame := sameRun_hostEdge hRun s.cycle
  obtain ⟨t, hStep, rfl | rfl⟩ := step_run h hRun
  · exact ⟨_, hStep, by simpa using hSame.cmd, by simpa using hSame.latch, by simp⟩
  · exact ⟨_, hStep, by simpa using hSame.cmd, by simpa using hSame.latch, by simp⟩

/-- A write that BUSY drops: CMD, LINE or a DBUF word (10_state.md R48). -/
theorem hostEdge_dropped {s : State} {r : Reg} (hRun : s.seq = .run) (hWrite : Writes s r)
    (hDropped : r = .cmd ∨ r = .line ∨ ∃ k, r = .dbuf k) : s.hostEdge s.cycle = (s.clockEdge s.cycle).dropWrite := by
  rw [hostEdge_writes hWrite, (State.busy_eq_true s).2 hRun]
  rcases hDropped with rfl | rfl | ⟨k, rfl⟩ <;> rfl

theorem step_dropped_wbusy {s : State} {r : Reg} (hRun : s.seq = .run) (hWrite : Writes s r)
    (hDropped : r = .cmd ∨ r = .line ∨ ∃ k, r = .dbuf k) : ∃ t, step s = .next t ∧ t.cmd = s.cmd ∧ t.wbusy = true := by
  obtain ⟨t, hStep, hCmd, -, hWbusy⟩ := step_run_keeps hWrite.runs hRun
  refine ⟨t, hStep, hCmd, hWbusy.trans ?_⟩
  rw [hostEdge_dropped hRun hWrite hDropped]
  rfl

/-- Settles O7: the accept of the written word is every field of R151 and R152; a run keeps CMD and the latched set. -/
theorem acceptLatchesOperands : Obligations.AcceptLatchesOperands := by
  refine ⟨fun s hIdle hWrite => ?accepted, fun s hRun hWrite => step_dropped_wbusy hRun hWrite (.inl rfl),
    fun s hRun hRuns => ?kept⟩
  case accepted =>
    have hKept := (keptByAccept_clockEdge s.cycle s).trans (keptByAccept_accept s.cycle.wdata _)
    refine ⟨_, step_accepts hIdle hWrite, rfl, rfl, (State.busy_eq_true _).2 rfl, ?_⟩
    exact ⟨rfl, rfl, rfl, rfl, rfl, rfl, rfl, rfl, rfl, rfl, rfl, rfl, rfl, rfl, rfl, rfl, rfl, rfl, rfl, rfl, rfl, rfl, rfl, rfl,
      rfl, rfl, rfl, rfl, rfl, hKept⟩
  case kept =>
    obtain ⟨t, hStep, -, hLatch, -⟩ := step_run_keeps hRuns hRun
    exact ⟨t, hStep, hLatch⟩

theorem issueLat_le_clkPerUs : Config.issueLat ≤ Config.clkPerUs := Nat.mod_lt _ clkPerUs_pos

/-- Settles O8: accept sets the countdown by whether the latched word's report has ticks, and a reserved word's has none. -/
theorem acceptSchedulesCompletion : Obligations.AcceptSchedulesCompletion := by
  refine ⟨⟨issueLat_pos, issueLat_le_clkPerUs, Nat.le_add_left _ _⟩, fun s hIdle hWrite => ?_⟩
  refine ⟨_, step_accepts hIdle hWrite, fun hNone => accept_untimed ?noTick, fun d hTicks => ?ticks⟩
  case noTick =>
    refine hNone.elim id fun hReserved => ?_
    rw [latchedReport_of_reserved (by rwa [latch_word_accept])]
    rfl
  case ticks =>
    obtain ⟨hPhase, hWait⟩ := accept_timed hTicks
    obtain ⟨hFrom, hTo⟩ := startDelay_bounds Config.issueLat (s.clockEdge s.cycle).prescaler clkPerUs_pos
    exact ⟨_, hPhase, hFrom, hTo, (startDelay_spec _ _ _ clkPerUs_pos issueLat_pos).2, hWait⟩

/-- Settles O40: on the completion edge the host's write acts first, and the completion sets DONE and OVF after it. -/
theorem setWinsOverClear : Obligations.SetWinsOverClear := by
  refine ⟨fun s hRun hWait hWrite => ?completion, fun s hRun hDropped => ?dropped⟩
  case completion =>
    refine ⟨_, step_completion hWrite.runs hRun hWait, State.finish_done _ _, fun hSeen => ?_, fun hSeen => ?_⟩
    · rw [State.finish_ovf, hSeen, Bool.or_true]
    · rw [State.finish_ovf, hSeen, Bool.or_false, hostEdge_writes hWrite]
      rfl
  case dropped =>
    have hWbusy : ∃ t, step s = .next t ∧ t.cmd = s.cmd ∧ t.wbusy = true := by
      rcases hDropped with hWrite | hWrite | ⟨k, hWrite⟩
      · exact step_dropped_wbusy hRun hWrite (.inl rfl)
      · exact step_dropped_wbusy hRun hWrite (.inr (.inl rfl))
      · exact step_dropped_wbusy hRun hWrite (.inr (.inr ⟨k, rfl⟩))
    obtain ⟨t, hStep, -, hSet⟩ := hWbusy
    exact ⟨t, hStep, hSet⟩

theorem latchedReport_of_decode {s : State} {i : Instr} (h : decode s.latch.word = .ok i) :
    s.latchedReport = commandReport i s := by
  simp only [State.latchedReport, h]

/-- On the completion edge the step is the meaning of the latched command, after the host's part (40_common.md R153). -/
theorem step_completion_exec {s : State} {i : Instr} (h : Runs s) (hRun : s.seq = .run) (hWait : s.wait = 0)
    (hDecode : decode s.latch.word = .ok i) : step s = exec i (s.hostEdge s.cycle) := by
  have hSame := sameRun_hostEdge hRun s.cycle
  rw [step_completion h hRun hWait, exec_eq, ← hSame.report, latchedReport_of_decode (by rwa [hSame.latch])]

theorem hostEdge_of_no_write {s : State} {c : PortCycle} (h : c.wr = false) : s.hostEdge c = s.clockEdge c := by
  simp [State.hostEdge, h]

/-- Settles O5: the three kinds of edges out of reset. -/
theorem stepRunsLatchedCommand : Obligations.StepRunsLatchedCommand := by
  refine fun s hRuns => ⟨fun i hRun hWait hDecode => step_completion_exec hRuns hRun hWait hDecode,
    fun hRun hWait => ⟨step_running hRuns hRun hWait, ?_⟩, step_idle hRuns, hostEdge_of_no_write⟩
  rw [State.advance_wait, (sameRun_hostEdge hRun s.cycle).wait]

/-- Taking the low 32 bits of the table's word first changes nothing. -/
theorem ofNat_mod_word (w : Nat) : BitVec.ofNat 32 (w % 2 ^ 32) = BitVec.ofNat 32 w :=
  BitVec.eq_of_toNat_eq (by simp)

theorem decode_of_decodeTableWord {w : Nat} {i : Instr} (h : decodeTableWord 32 w = some i) :
    decode (BitVec.ofNat 32 (w % 2 ^ 32)) = .ok i := by
  unfold decodeTableWord at h
  cases hDecode : decode (BitVec.ofNat 32 (w % 2 ^ 32)) with
  | error e => rw [hDecode] at h; cases h
  | ok j => rw [hDecode] at h; exact congrArg Except.ok (Option.some.inj h)

/-- Settles O6: a placed word is latched and due on the next edge, which a quiet port cycle makes a run. -/
theorem fetchWordRunsOnNextStep : Obligations.FetchWordRunsOnNextStep := by
  refine fun s w i hTable => ⟨?_, congrArg (State.latchOf · s) (ofNat_mod_word w), ofNat_mod_word w⟩
  have hDecode := decode_of_decodeTableWord hTable
  rw [← Latch.word_latchOf (BitVec.ofNat 32 (w % 2 ^ 32)) s] at hDecode
  exact step_completion_exec (s := s.withFetchWord 32 w) ⟨rfl, rfl⟩ rfl rfl hDecode

/-- The host obeys the port on the coming edges: the next cycle is out of reset and asserts one strobe at most, as a quiet one
does. -/
theorem runs_of_port {s : State} {n : Nat}
    (h : ∀ c ∈ s.port.take (n + 1), c.rstN = true ∧ (c.rd && c.wr) = false) : Runs s := by
  unfold Runs State.cycle
  cases hPort : s.port with
  | nil => exact ⟨rfl, rfl⟩
  | cons c rest => exact h c (by simp [hPort])

/-- Settles O47: by induction on the edges left; each edge before the last keeps the command running with one edge less. -/
theorem runningCommandEndsOnTime : Obligations.RunningCommandEndsOnTime := by
  intro s
  induction hWait : s.wait generalizing s with
  | zero =>
    intro hRun hPort
    have hStep := step_completion (runs_of_port hPort) hRun hWait
    refine ⟨_, core_run_succ 0 hStep, State.finish_seq _ _, State.finish_done _ _, fun k hk => ?_⟩
    obtain rfl : k = 0 := by omega
    exact ⟨s, rfl, hRun⟩
  | succ n ih =>
    intro hRun hPort
    have hSame := sameRun_hostEdge hRun s.cycle
    have hStep := step_running (runs_of_port hPort) hRun (by omega)
    obtain ⟨t, hEnd, hIdle, hDone, hBefore⟩ := ih (s.hostEdge s.cycle).advance (by simp [hSame.wait, hWait])
      (by simpa using hSame.seq.trans hRun) fun c hc => by
        rw [State.advance_port, hostEdge_port] at hc
        refine hPort c ?_
        cases hList : s.port with
        | nil => simp [hList] at hc
        | cons c' rest => simpa [hList] using .inr (by simpa [hList] using hc)
    refine ⟨t, (core_run_succ _ hStep).trans hEnd, hIdle, hDone, fun k hk => ?_⟩
    cases k with
    | zero => exact ⟨s, rfl, hRun⟩
    | succ k =>
      obtain ⟨u, hRunTo, hStillRuns⟩ := hBefore k (by omega)
      exact ⟨u, (core_run_succ _ hStep).trans hRunTo, hStillRuns⟩

/-- Settles O51: the move of `advance` in each phase, on the timebase the edge moved on. -/
theorem waveformAdvancesByTick : Obligations.WaveformAdvancesByTick := by
  intro s hRun hWait hRuns hLt
  have hSame := sameRun_hostEdge hRun s.cycle
  have hClock := hostEdge_prescaler s.cycle s
  have hIff := nextPrescaler_eq_zero_iff hLt
  refine ⟨_, step_running hRuns hRun hWait, fun hPhase => ?ticking, fun hPhase => ?start, fun n hPhase => ?issue,
    fun hPhase => ?untimed⟩
  all_goals have hEdge := hSame.phase.trans hPhase
  case ticking =>
    rw [State.advance_prescaler, hClock, ← hSame.tick]
    by_cases hWrap : s.prescaler + 1 = Config.clkPerUs
    · rw [advance_boundary hEdge (hClock.trans (hIff.2 hWrap)), if_pos hWrap]
      refine ⟨rfl, hIff, rfl, fun x => ?_⟩
      rw [startTick_seqDrive, if_pos hWrap, ← hSame.drive]
      rfl
    · rw [advance_within_tick hEdge (fun h => hWrap (hIff.1 (hClock.symm.trans h))), if_neg hWrap]
      refine ⟨hEdge, hIff, rfl, fun x => ?_⟩
      rw [if_neg hWrap, ← hSame.seqDrive]
      exact seqDrive_congr rfl rfl x
  case start =>
    rw [advance_issue_last hEdge le_rfl]
    refine ⟨rfl, rfl, fun x => ?_⟩
    rw [startTick_seqDrive, ← hSame.drive]
    rfl
  case issue =>
    rw [advance_issue hEdge (by omega)]
    refine ⟨rfl, fun x => ?_⟩
    rw [← hSame.seqDrive]
    exact seqDrive_congr rfl rfl x
  case untimed =>
    rw [advance_untimed hEdge]
    refine ⟨hEdge, hSame.tick, fun x => ?_⟩
    rw [← hSame.seqDrive]
    exact seqDrive_congr rfl rfl x

/-- A move of the sequencer inside a tick, or before tick 0, keeps its drives. -/
theorem advance_seqDrive_of_no_start {s : State} (hIssue : ∀ n, s.phase = .issue n → 1 < n)
    (hTicking : s.phase = .ticking → s.prescaler ≠ 0) (x : Line) : s.advance.seqDrive x = s.seqDrive x := by
  cases hPhase : s.phase with
  | untimed => rw [advance_untimed hPhase]; exact seqDrive_congr rfl rfl x
  | issue n => rw [advance_issue hPhase (Nat.not_le.2 (hIssue n hPhase))]; exact seqDrive_congr rfl rfl x
  | ticking => rw [advance_within_tick hPhase (hTicking hPhase)]; exact seqDrive_congr rfl rfl x

theorem State.advance_manualDrive (s : State) (x : Line) : s.advance.manualDrive x = s.manualDrive x :=
  manualDrive_congr s.advance_owDrv s.advance_pwDrv x

theorem SameRun.manualDrive {s e : State} (h : SameRun s e) (x : Line) : e.manualDrive x = s.manualDrive x :=
  manualDrive_congr h.owDrv h.pwDrv x

/-- The completion of a command that drives its line falls on a tick boundary (40_common.md R156). -/
theorem completion_wraps_of_driven {s : State} {x : Line} (hSeq : SequencerInv s) (hCount : CountdownInv s) (hRun : s.seq = .run)
    (hWait : s.wait = 0) (hDriven : s.seqDrive x = true) : s.prescaler + 1 = Config.clkPerUs := by
  have hPhase : s.phase = .ticking := by
    by_contra hBefore
    exact Bool.false_ne_true ((hSeq.run_before hRun hBefore x).symm.trans hDriven)
  obtain ⟨d, -, hLeft, hEdges⟩ := hCount.ticking hRun hPhase
  have hLt := hSeq.prescaler_lt
  have hOne : 1 * Config.clkPerUs ≤ (d - s.tick) * Config.clkPerUs := Nat.mul_le_mul_right _ (by omega)
  omega

/-- A host write while no command runs changes a manual drive bit only at LINE. -/
theorem writeReg_idle_manualDrive (v : Word) {r : Reg} (s : State) (h : r ≠ .line) (x : Line) :
    (s.writeReg false v r).manualDrive x = s.manualDrive x := by
  cases r with
  | line => exact absurd rfl h
  | _ => exact manualDrive_congr rfl rfl x

/-- With no command running, a drive changes on an edge out of reset only by a write of LINE. -/
theorem driveLow_hostEdge_idle {s : State} (hRuns : Runs s) (hIdle : s.seq = .idle) (hNoWrite : ¬ Writes s .line) (x : Line) :
    (s.hostEdge s.cycle).driveLow x = s.driveLow x := by
  unfold State.hostEdge
  rw [(State.busy_eq_false s).2 hIdle]
  split
  case isTrue hWr =>
    have hReg : Reg.ofAddr s.cycle.addr ≠ .line := fun hLine =>
      hNoWrite ⟨hRuns.1, by simpa [hWr] using hRuns.2, hWr, hLine⟩
    have hManual := writeReg_idle_manualDrive s.cycle.wdata (s.clockEdge s.cycle) hReg x
    have hSeq : ((s.clockEdge s.cycle).writeReg false s.cycle.wdata (Reg.ofAddr s.cycle.addr)).seqDrive x = s.seqDrive x := by
      by_cases hCmd : Reg.ofAddr s.cycle.addr = .cmd
      · rw [hCmd]
        exact (State.accept_seqDrive _ _ x).trans (s.clockEdge_seqDrive _ x)
      · exact ((writeReg_idle_drive _ _ hCmd).2 x).trans (s.clockEdge_seqDrive _ x)
    rw [State.driveLow, State.driveLow, hManual, hSeq]
    exact congrArg (· || s.seqDrive x) (manualDrive_congr rfl rfl x)
  case isFalse => exact s.clockEdge_driveLow s.cycle x

/-- Settles O52: a completion with a driven line, a start of a tick and a write of LINE are the only edges that change a drive. -/
theorem driveChangesOnlyAtBoundaries : Obligations.DriveChangesOnlyAtBoundaries := by
  refine ⟨fun s => ⟨rfl, rfl⟩, fun s t x hSeq hCount hRuns hStep hChanged => ?_⟩
  have hLt := hSeq.prescaler_lt
  have hClock := hostEdge_prescaler s.cycle s
  have hIff := nextPrescaler_eq_zero_iff hLt
  cases hState : s.seq with
  | idle =>
    cases (step_idle hRuns hState).symm.trans hStep
    exact .inr (by_contra fun hNoWrite => hChanged (driveLow_hostEdge_idle hRuns hState hNoWrite x))
  | run =>
    left
    have hSame := sameRun_hostEdge hState s.cycle
    by_cases hWait : s.wait = 0
    · cases (step_completion hRuns hState hWait).symm.trans hStep
      rw [State.finish_prescaler, hClock, hIff]
      refine completion_wraps_of_driven (x := x) hSeq hCount hState hWait (eq_true_of_ne_false fun hReleased => hChanged ?_)
      rw [State.driveLow, State.driveLow, State.finish_manualDrive, State.finish_seqDrive, hSame.manualDrive, hReleased]
    · cases (step_running hRuns hState hWait).symm.trans hStep
      rw [State.advance_prescaler]
      by_contra hInside
      refine hChanged ?_
      rw [State.driveLow, State.driveLow, State.advance_manualDrive, hSame.manualDrive,
        advance_seqDrive_of_no_start (fun n hIssue => ?_) (fun _ => hInside), hSame.seqDrive]
      obtain ⟨hPos, hBoundary, -⟩ := hCount.issue hState n (hSame.phase.symm.trans hIssue)
      by_contra hLast
      obtain rfl : n = 1 := by omega
      exact hInside (hClock.trans (hIff.2 (wraps_of_succ_mod hLt hBoundary)))

end Sys2Proof.Machine
end

section
/-! The host port and the register window (10_state.md R30 to R47, 20_memory.md R80 to R90): the byte lanes of DBUF, what each write
does while a command runs and while none does, and what a read leaves alone. -/

namespace Sys2Proof.Machine

/-- A byte number of the frame buffer is a word and a byte lane (10_state.md R39). -/
theorem eq_append_lane_iff (i : BitVec 4) (k l : BitVec 2) : i = k ++ l ↔ i.toNat / 4 = k.toNat ∧ i.toNat % 4 = l.toNat := by
  rw [← BitVec.toNat_inj, toNat_append_eq_add]
  have := l.isLt
  omega

/-- Byte lane `l` of the word DBUF`k` is byte `4k + l` (20_memory.md R90). -/
theorem State.dbufWord_lane (s : State) (k l : BitVec 2) : (s.dbufWord k).extractLsb' (8 * l.toNat) 8 = s.dbufByte (k ++ l) := by
  obtain rfl | rfl | rfl | rfl : l = 0#2 ∨ l = 1#2 ∨ l = 2#2 ∨ l = 3#2 := by revert l; decide
  all_goals
    ext j hj
    simp only [State.dbufWord, BitVec.getElem_extractLsb', BitVec.getLsbD_append]
    simp [hj, show ¬ 16 + j < 8 by omega, show 16 + j - 8 = 8 + j by omega, show ¬ 24 + j < 8 by omega,
      show 24 + j - 8 = 16 + j by omega]

/-- Each byte of the frame buffer after a write of one of its words, by word and byte lane (20_memory.md R90). -/
theorem State.dbufByte_setDbufWord_lane (s : State) (k : BitVec 2) (v : Word) (i : BitVec 4) :
    (s.setDbufWord k v).dbufByte i =
      if i.toNat / 4 = k.toNat then v.extractLsb' (8 * (i.toNat % 4)) 8 else s.dbufByte i := by
  have hLane : i.toNat % 4 < 4 := Nat.mod_lt _ (by decide)
  simp only [State.dbufByte_setDbufWord, eq_append_lane_iff]
  by_cases hWord : i.toNat / 4 = k.toNat
  · generalize i.toNat % 4 = l at hLane ⊢
    simp only [hWord, true_and, if_true]
    interval_cases l <;> rfl
  · simp only [hWord, false_and, if_false]

/-- Settles O54: a byte number is a word and a lane, and the lanes of a word are read and written apart. -/
theorem dbufBytesPackLittleEndian : Obligations.DbufBytesPackLittleEndian := by
  refine fun s i k v => ⟨?_, State.dbufByte_setDbufWord_lane s k v i⟩
  have hSplit : i = i.extractLsb' 2 2 ++ BitVec.ofNat 2 (i.toNat % 4) := by
    revert i
    decide
  have hLane := s.dbufWord_lane (i.extractLsb' 2 2) (BitVec.ofNat 2 (i.toNat % 4))
  rw [← hSplit, BitVec.toNat_ofNat, Nat.mod_mod] at hLane
  exact hLane

/-- Bit `j` of a mask of the `k` lowest bits. -/
theorem getLsbD_lowMask (k j : Nat) : (BitVec.ofNat 32 (2 ^ k - 1)).getLsbD j = (decide (j < 32) && decide (j < k)) := by
  rw [BitVec.getLsbD_ofNat, Nat.testBit_two_pow_sub_one]

/-- CTRL keeps its two bits of the written word (10_state.md R32). -/
theorem readReg_ctrl_write (s : State) (v : Word) : (s.writeReg false v .ctrl).readReg .ctrl = v &&& 0x00000003#32 := by
  refine BitVec.eq_of_getLsbD_eq fun j hj => ?_
  refine (State.ctrlWord_getLsbD _ j).trans ?_
  rw [BitVec.getLsbD_and, show 0x00000003#32 = BitVec.ofNat 32 (2 ^ 2 - 1) from rfl, getLsbD_lowMask]
  rcases j with _ | _ | j <;> simp [State.writeReg]

/-- TIM4 keeps the low half of the written word (10_state.md R44). -/
theorem readReg_tim4_write (s : State) (v : Word) : (s.writeReg false v .tim4).readReg .tim4 = v &&& 0x0000FFFF#32 := by
  refine BitVec.eq_of_getLsbD_eq fun j hj => ?_
  rw [BitVec.getLsbD_and, show 0x0000FFFF#32 = BitVec.ofNat 32 (2 ^ 16 - 1) from rfl, getLsbD_lowMask]
  simp [State.writeReg, State.readReg, hj, Bool.and_comm]

/-- The bits of LINE outside the two pin bits, which are read-only (10_state.md R38). -/
theorem getLsbD_lineMask {j : Nat} (h : j < 32) : (0xFFFFFCFF#32).getLsbD j = decide (j ≠ 8 ∧ j ≠ 9) := by
  interval_cases j <;> rfl

/-- LINE keeps its two drive bits of the written word (10_state.md R38). -/
theorem readReg_line_write (s : State) (v : Word) :
    (s.writeReg false v .line).readReg .line &&& 0xFFFFFCFF#32 = v &&& 0x00000003#32 := by
  refine BitVec.eq_of_getLsbD_eq fun j hj => ?_
  have hRead := State.lineWord_getLsbD (s.writeReg false v .line) j
  rw [BitVec.getLsbD_and, BitVec.getLsbD_and, show 0x00000003#32 = BitVec.ofNat 32 (2 ^ 2 - 1) from rfl, getLsbD_lowMask,
    getLsbD_lineMask hj]
  refine (congrArg (· && _) hRead).trans ?_
  by_cases h0 : j = 0
  · subst h0; rfl
  · by_cases h1 : j = 1
    · subst h1; rfl
    · by_cases hPin : j = 8 ∨ j = 9
      · rcases hPin with rfl | rfl <;> simp
      · simp [h0, h1, not_or.1 hPin, show ¬ j < 2 by omega]

/-- A write while BUSY = 0, of a register other than CMD, leaves every other register of the window. -/
theorem readReg_writeReg_of_ne (s : State) (v : Word) {r r' : Reg} (hNe : r ≠ r') (hCmd : r ≠ .cmd) :
    (s.writeReg false v r).readReg r' = s.readReg r' := by
  cases r with
  | cmd => exact absurd rfl hCmd
  | dbuf k =>
    cases r' with
    | dbuf k' => exact s.dbufWord_setDbufWord_of_ne v fun h => hNe (congrArg Reg.dbuf h)
    | _ => exact s.readReg_writeReg_dbuf v k _ (by simp)
  | _ => cases r' <;> simp at hNe <;> rfl

/-- Settles O10: each register keeps its writable bits, other registers are untouched, and a read shows the register's field. -/
theorem windowReadback : Obligations.WindowReadback := by
  refine fun s v => ⟨⟨readReg_ctrl_write s v, rfl, rfl, rfl, fun k => s.dbufWord_setDbufWord_same k v, readReg_line_write s v,
    rfl, rfl, rfl, rfl, readReg_tim4_write s v, rfl⟩, fun r r' => readReg_writeReg_of_ne s v, ?fields⟩
  refine ⟨rfl, rfl, rfl, rfl, rfl, rfl, rfl, rfl, ?tim4, s.ctrlWord_getLsbD 0, s.ctrlWord_getLsbD 1, fun j hj => ?ctrl⟩
  case tim4 =>
    have := s.tStart.isLt
    refine (BitVec.toNat_setWidth 32 s.tStart).trans (Nat.mod_eq_of_lt (by omega))
  case ctrl => exact (s.ctrlWord_getLsbD j).trans (by rw [if_neg (by omega), if_neg (by omega)])

/-- Settles O13: the layout of STATUS bit by bit, and a write of it that clears three of the bits. -/
theorem statusWriteOneToClear : Obligations.StatusWriteOneToClear := by
  refine ⟨fun s => ⟨?busy, s.statusWord_getLsbD 1, s.statusWord_getLsbD 2, s.statusWord_getLsbD 3, ?err, fun j hj => ?reserved⟩,
    fun s b v => ⟨?cleared, _, _, _, rfl⟩⟩
  case busy => rw [← State.busy_eq_true]; exact iff_of_eq (congrArg (· = true) (s.statusWord_getLsbD 0))
  case err =>
    ext j hj
    rw [BitVec.getElem_extractLsb']
    refine (s.statusWord_getLsbD (8 + j)).trans ?_
    simp [show 8 + j ≠ 0 ∧ 8 + j ≠ 1 ∧ 8 + j ≠ 2 ∧ 8 + j ≠ 3 by omega, show 8 + j < 11 by omega, hj]
  case reserved =>
    refine (s.statusWord_getLsbD j).trans ?_
    simp [show j ≠ 0 ∧ j ≠ 1 ∧ j ≠ 2 ∧ j ≠ 3 ∧ ¬ (8 ≤ j ∧ j < 11) by omega]
  case cleared =>
    refine BitVec.eq_of_getLsbD_eq fun j hj => ?_
    have hAfter := State.statusWord_getLsbD (s.writeReg b v .status) j
    have hBefore := s.statusWord_getLsbD j
    have hMask : (0x0000000E#32).getLsbD j = decide (1 ≤ j ∧ j ≤ 3) := by interval_cases j <;> rfl
    rw [BitVec.getLsbD_and, BitVec.getLsbD_not, BitVec.getLsbD_and, hMask]
    refine hAfter.trans ((congrArg (· && _) hBefore).trans ?_).symm
    by_cases hFlag : 1 ≤ j ∧ j ≤ 3
    · obtain ⟨hFrom, hTo⟩ := hFlag
      interval_cases j <;> simp [State.writeReg]
    · have hBusy : (s.writeReg b v .status).busy = s.busy := rfl
      have hErr : (s.writeReg b v .status).err = s.err := rfl
      simp [hFlag, hj, show j ≠ 1 ∧ j ≠ 2 ∧ j ≠ 3 by omega, hBusy, hErr]

theorem writeReg_sync (b : Bool) (v : Word) (r : Reg) (s : State) :
    (s.writeReg b v r).owSync = s.owSync ∧ (s.writeReg b v r).pwSync = s.pwSync := by
  cases r with
  | cmd | line | dbuf => cases b <;> exact ⟨rfl, rfl⟩
  | _ => exact ⟨rfl, rfl⟩

/-- Every edge out of reset shifts the pin, low while SWDB drives it, into its synchroniser (10_state.md R47, 20_memory.md R81). -/
theorem hostEdge_sync (c : PortCycle) (s : State) :
    (s.hostEdge c).owSync = s.owSync.shift (c.owIn && !s.driveLow .ow) ∧
      (s.hostEdge c).pwSync = s.pwSync.shift (c.pwIn && !s.driveLow .pw) := by
  unfold State.hostEdge
  split
  · exact writeReg_sync _ _ _ _
  · exact ⟨rfl, rfl⟩

/-- Settles O53: the layout of LINE bit by bit, and two shifts of each synchroniser. -/
theorem lineShowsSynchronisedPins : Obligations.LineShowsSynchronisedPins := by
  refine ⟨fun s => ⟨s.lineWord_getLsbD 0, s.lineWord_getLsbD 1, s.lineWord_getLsbD 8, s.lineWord_getLsbD 9,
    fun j hFrom h8 h9 => (s.lineWord_getLsbD j).trans ?_⟩, fun s c1 c2 => ?_⟩
  · rw [if_neg (by omega), if_neg (by omega), if_neg h8, if_neg h9]
  · obtain ⟨hOw1, hPw1⟩ := hostEdge_sync c1 s
    obtain ⟨hOw2, hPw2⟩ := hostEdge_sync c2 (s.hostEdge c1)
    rw [hOw2, hPw2, hOw1, hPw1]
    exact ⟨rfl, rfl⟩

/-- Settles O12: the strobes are looked at first, and every other edge answers. -/
theorem stepAnswersUnlessBothStrobes : Obligations.StepAnswersUnlessBothStrobes := by
  refine fun s => ⟨fun hRd hWr => by simp [step, hRd, hWr], fun hStrobes => ?_⟩
  rcases step_cases s with ⟨hBoth, -⟩ | ⟨-, -, hReset⟩ | ⟨-, -, -, hEnds⟩ | ⟨-, -, -, hRuns⟩ | ⟨-, -, hStays⟩
  · exact absurd (hStrobes.symm.trans hBoth) Bool.false_ne_true
  · exact ⟨_, hReset⟩
  · exact ⟨_, hEnds⟩
  · exact ⟨_, hRuns⟩
  · exact ⟨_, hStays⟩

/-- The host's part of an edge on which the host writes, with BUSY as before the edge. -/
theorem hostEdge_of_write {s : State} {v : Word} {r : Reg} {b : Bool} (hBusy : s.busy = b) (hWr : s.cycle.wr = true)
    (hData : s.cycle.wdata = v) (hReg : Reg.ofAddr s.cycle.addr = r) :
    s.hostEdge s.cycle = (s.clockEdge s.cycle).writeReg b v r := by
  rw [State.hostEdge, if_pos hWr, hBusy, hData, hReg]

/-- Settles O9: the write of each register while BUSY = 1, after the clocked part of the edge. -/
theorem hostWritesWhileBusy : Obligations.HostWritesWhileBusy := by
  intro s v hRun hWr hData e
  refine ⟨fun r hReg => ?_, fun r => ?kept, rfl, rfl⟩
  case kept => exact or_iff_not_imp_right.2 (s.readReg_clockEdge s.cycle r)
  have hEdge := hostEdge_of_write ((State.busy_eq_true s).2 hRun) hWr hData hReg
  rw [hEdge]
  refine ⟨fun hDropped => ?dropped, fun h => ?_, fun h => ?_, fun h => ?_, fun h => ?_, fun h => ?_, fun h => ?_, fun h => ?_,
    fun h => ?_, fun h => ?_, fun hNone => ?nothing⟩
  case dropped => rcases hDropped with rfl | rfl | ⟨k, rfl⟩ <;> rfl
  case nothing => rcases hNone with rfl | rfl <;> rfl
  all_goals subst h; rfl

/-- Settles O60: the step is the clocked part and the write; each register by its own equation. -/
theorem hostWritesWhileIdle : Obligations.HostWritesWhileIdle := by
  intro s r v hIdle hWrite hData e
  have hStep : step s = .next (e.writeReg false v r) := by
    rw [step_idle hWrite.runs hIdle, hostEdge_writes hWrite, (State.busy_eq_false s).2 hIdle, hData]
  rw [hStep]
  refine ⟨rfl, fun h => ?_, fun h => ?_, fun h => ?_, fun h => ?_, fun h => ?_, fun k h => ?dbuf, fun h => ?_, fun h => ?_,
    fun h => ?_, fun h => ?_, fun h => ?_, fun h => ?nothing, fun r' => ?kept, rfl, rfl, rfl, fun x => s.clockEdge_seqDrive _ x⟩
  case kept => exact or_iff_not_imp_right.2 (s.readReg_clockEdge s.cycle r')
  case nothing => rcases h with rfl | rfl <;> rfl
  case dbuf =>
    subst h
    exact ⟨_, rfl, fun i => State.dbufByte_setDbufWord_lane e k v (BitVec.ofFin i)⟩
  all_goals subst h; rfl

end Sys2Proof.Machine
end

section
/-! Reads, and the addresses of the window (20_memory.md R84 to R87; 10_state.md R30; 30_encoding.md R131). -/

namespace Sys2Proof.Machine

/-- `s` with another value on the read data port, which nothing else reads. -/
def State.withRdata (v : Word) (s : State) : State := { s with rdata := v }

theorem latchedReport_withRdata (v : Word) (s : State) : (s.withRdata v).latchedReport = s.latchedReport :=
  latchedReport_congr rfl rfl rfl (State.ext_congr rfl rfl)

theorem finish_withRdata (r : Report) (v : Word) (s : State) : (s.withRdata v).finish r = (s.finish r).withRdata v := by
  obtain ⟨hResult, hDbuf⟩ := State.commit_congr r.staged (s := s.withRdata v) (s' := s) rfl rfl
  rw [State.finish_eq, State.finish_eq, Report.resultAfter, Report.dbufAfter, hResult, hDbuf]
  rfl

theorem advance_withRdata (v : Word) (s : State) : (s.withRdata v).advance = s.advance.withRdata v := by
  cases hPhase : s.phase with
  | untimed => rw [advance_untimed hPhase, advance_untimed (s := s.withRdata v) hPhase]; rfl
  | issue n =>
    by_cases hLast : n ≤ 1
    · rw [advance_issue_last hPhase hLast, advance_issue_last (s := s.withRdata v) hPhase hLast]; rfl
    · rw [advance_issue hPhase hLast, advance_issue (s := s.withRdata v) hPhase hLast]; rfl
  | ticking =>
    by_cases hBoundary : s.prescaler = 0
    · rw [advance_boundary hPhase hBoundary, advance_boundary (s := s.withRdata v) hPhase hBoundary]; rfl
    · rw [advance_within_tick hPhase hBoundary, advance_within_tick (s := s.withRdata v) hPhase hBoundary]; rfl

/-- Where the host's part of an edge differs only on the read data port, so does the edge. -/
theorem runEdge_read {s q : State} {c d : PortCycle} {v : Word} (hSeq : q.seq = s.seq) (hWait : q.wait = s.wait)
    (hEdge : s.hostEdge c = (q.hostEdge d).withRdata v) :
    ∃ u, q.runEdge d = .next u ∧ s.runEdge c = .next (u.withRdata v) := by
  unfold State.runEdge
  rw [hSeq, hWait, hEdge]
  split
  · split
    · exact ⟨_, completionEdge_eq _, by rw [completionEdge_eq, latchedReport_withRdata, finish_withRdata]⟩
    · exact ⟨_, rfl, by rw [advance_withRdata]⟩
  · exact ⟨_, rfl, rfl⟩

theorem step_runEdge {s : State} (hRst : s.cycle.rstN = true) (hStrobes : (s.cycle.rd && s.cycle.wr) = false) :
    step s = s.runEdge s.cycle := by simp [step, hRst, hStrobes]

/-- The port list `s` has with the read strobe of its coming cycle taken away. -/
def State.withoutRead (c : PortCycle) (rest : List PortCycle) (s : State) : State :=
  { s with port := { c with rd := false } :: rest }

theorem clockEdge_read {s : State} {c : PortCycle} {rest : List PortCycle} (hPort : s.port = c :: rest) (hRd : c.rd = true) :
    s.clockEdge c = State.withRdata (s.readReg (Reg.ofAddr c.addr)) ((s.withoutRead c rest).clockEdge { c with rd := false }) := by
  simp only [State.clockEdge, State.nextInput, State.withRdata, State.withoutRead, hPort, hRd, if_true, List.tail_cons]
  rfl

theorem resetEdge_read {s : State} {c : PortCycle} {rest : List PortCycle} (hPort : s.port = c :: rest) (hRd : c.rd = true) :
    s.resetEdge c = State.withRdata (s.readReg (Reg.ofAddr c.addr)) ((s.withoutRead c rest).resetEdge { c with rd := false }) := by
  simp only [State.resetEdge, State.withRdata, State.withoutRead, hPort, hRd, if_true, List.tail_cons]

/-- A read cycle and the same cycle without the read take the same step, but for the read data port, in reset too (20_memory.md
R84; log entry 14). -/
theorem step_read {s : State} {c : PortCycle} {rest : List PortCycle} (hPort : s.port = c :: rest) (hRd : c.rd = true)
    (hWr : c.wr = false) :
    ∃ u, step (s.withoutRead c rest) = .next u ∧ step s = .next (u.withRdata (s.readReg (Reg.ofAddr c.addr))) := by
  have hCycle : s.cycle = c := by rw [State.cycle, hPort]; rfl
  have hStrobes : (s.cycle.rd && s.cycle.wr) = false := by rw [hCycle, hWr, Bool.and_false]
  cases hRst : c.rstN with
  | false =>
    refine ⟨_, step_reset (s := s.withoutRead c rest) hRst rfl, ?_⟩
    rw [step_reset (by rwa [hCycle]) hStrobes, hCycle]
    exact congrArg _ (resetEdge_read hPort hRd)
  | true =>
    have hEdge := clockEdge_read hPort hRd
    rw [← hostEdge_of_no_write hWr, ← hostEdge_of_no_write (c := { c with rd := false }) hWr] at hEdge
    obtain ⟨u, hWithout, hWith⟩ := runEdge_read (s := s) (q := s.withoutRead c rest) rfl rfl hEdge
    refine ⟨u, (step_runEdge (s := s.withoutRead c rest) hRst rfl).trans hWithout, ?_⟩
    rw [step_runEdge (by rwa [hCycle]) hStrobes, hCycle, hWith]

/-- The sequencer's move leaves what the host reads, but for LINE. -/
theorem State.readReg_advance (s : State) {r : Reg} (h : r ≠ .line) : s.advance.readReg r = s.readReg r := by
  rw [advance_eq]
  cases r with
  | line => exact absurd rfl h
  | _ => rfl

@[simp] theorem State.advance_owSync (s : State) : s.advance.owSync = s.owSync := by rw [advance_eq]
@[simp] theorem State.advance_pwSync (s : State) : s.advance.pwSync = s.pwSync := by rw [advance_eq]

/-- With both flip-flops of each pin at one level and the drives kept, LINE shows what it showed. -/
theorem lineWord_of_settled {s t : State} (hOwDrv : t.owDrv = s.owDrv) (hPwDrv : t.pwDrv = s.pwDrv)
    (hOw : t.owSync.second = s.owSync.second) (hPw : t.pwSync.second = s.pwSync.second)
    (hDrive : ∀ x, t.driveLow x = s.driveLow x) : t.lineWord = s.lineWord := by
  simp only [State.lineWord, State.lineIn, hOwDrv, hPwDrv, hOw, hPw, hDrive]

/-- An edge that neither writes, completes nor resets is the clocked part and at most an advance. -/
theorem step_without_write {s t : State} (hNoEnd : s.seq = .run → s.wait ≠ 0) (hRuns : Runs s) (hWr : s.cycle.wr = false)
    (hStep : step s = .next t) : t = s.clockEdge s.cycle ∨ t = (s.clockEdge s.cycle).advance := by
  cases hSeq : s.seq with
  | idle =>
    rw [step_idle hRuns hSeq, hostEdge_of_no_write hWr] at hStep
    exact .inl (Host.Outcome.next.inj hStep).symm
  | run =>
    rw [step_running hRuns hSeq (hNoEnd hSeq), hostEdge_of_no_write hWr] at hStep
    exact .inr (Host.Outcome.next.inj hStep).symm

/-- Settles O11: the read data port is read by nothing, and an edge without a write and a completion leaves every register. -/
theorem readsChangeNothing : Obligations.ReadsChangeNothing := by
  refine ⟨fun s c rest hPort hRd hWr => ?once, fun s t r hNoEnd hRuns hWr hStep hLine => ?again⟩
  case once =>
    obtain ⟨u, hWithout, hWith⟩ := step_read hPort hRd hWr
    exact ⟨_, u, hWith, hWithout, rfl⟩
  case again =>
    have hEdge := step_without_write hNoEnd hRuns hWr hStep
    by_cases hr : r = .line
    · subst hr
      obtain ⟨hOw, hPw, hDrive⟩ := hLine rfl
      refine lineWord_of_settled ?_ ?_ ?_ ?_ hDrive
      all_goals rcases hEdge with rfl | rfl
      all_goals simp [Synchroniser.shift, hOw, hPw]
    · rcases hEdge with rfl | rfl
      · exact s.readReg_clockEdge s.cycle r hr
      · exact (State.readReg_advance _ hr).trans (s.readReg_clockEdge s.cycle r hr)

/-- Settles O59: the map at each of its offsets, and at every other offset of the window; outside it the guard fails. -/
theorem windowOffsetsNameRegisters : Obligations.WindowOffsetsNameRegisters := by
  refine ⟨by decide, by decide, fun clock off width v hOut => ?_⟩
  have hGuard : ¬ (off % 4 = 0 ∧ off < 256 ∧ width = 4) := fun ⟨_, hWindow, _⟩ => by omega
  exact ⟨(memRead_eq_none_iff clock off width).2 hGuard, (memWrite_eq_none_iff clock off width v).2 hGuard⟩

/-- Byte `k` of the address, as the word written to ARG0. -/
theorem ofByte_addressByte (address : BitVec 64) (k : Nat) :
    Word.ofByte (address.extractLsb' (8 * k) 8) = BitVec.ofNat 32 (address.toNat / 256 ^ k % 256) := by
  apply BitVec.eq_of_toNat_eq
  have hPow : 2 ^ (8 * k) = 256 ^ k := by rw [Nat.pow_mul]
  rw [Word.ofByte, BitVec.toNat_setWidth, BitVec.extractLsb'_toNat, Nat.shiftRight_eq_div_pow, hPow, BitVec.toNat_ofNat]

/-- Settles O58: each byte sent is an ARG0 write, the word of OW_WRBYTE and a wait. -/
theorem owSelectSendsLeastByteFirst : Obligations.OwSelectSendsLeastByteFirst := by
  intro address
  have hBytes (k : Nat) : hostOwWrbyte (address.extractLsb' (8 * k) 8) =
      [.wr .arg0 (BitVec.ofNat 32 (address.toNat / 256 ^ k % 256)), .wr .cmd 0x00000004#32, .wait] := by
    rw [hostOwWrbyte, ofByte_addressByte]
    rfl
  rw [hostOwSelect, List.flatMap_cons, List.flatMap_map, funext hBytes]
  rfl

end Sys2Proof.Machine
end

section
/-! The frame of a completion (40_common.md R154): which staged writes reach RESULT and DBUF, and what each command stages. -/

namespace Sys2Proof.Machine

theorem State.commit_result_of_none (ws : List Staged) (s : State) (h : ∀ v, .result v ∉ ws) :
    (s.commit ws).result = s.result := by
  induction ws generalizing s with
  | nil => rfl
  | cons w ws ih =>
    rw [State.commit_cons, ih _ fun v hMem => h v (List.mem_cons_of_mem _ hMem)]
    cases w with
    | result v => exact absurd List.mem_cons_self (h v)
    | dbuf i b => rfl

theorem State.commit_dbufByte_of_none (ws : List Staged) (j : BitVec 4) (s : State) (h : ∀ b, .dbuf j b ∉ ws) :
    (s.commit ws).dbufByte j = s.dbufByte j := by
  induction ws generalizing s with
  | nil => rfl
  | cons w ws ih =>
    rw [State.commit_cons, ih _ fun b hMem => h b (List.mem_cons_of_mem _ hMem)]
    cases w with
    | result v => rfl
    | dbuf i b =>
      have hNe : j ≠ i := fun hEq => h b (hEq ▸ List.mem_cons_self)
      exact s.dbufByte_setDbuf_of_ne b hNe

/-- A completion leaves RESULT where its report stages no value for it. -/
theorem finish_result_of_none {r : Report} (s : State) (h : ∀ v, .result v ∉ r.staged) : (s.finish r).result = s.result := by
  rw [State.finish_eq, State.completedWith_result, Report.resultAfter]
  split
  · exact State.commit_result_of_none _ s h
  · rfl

/-- A completion leaves a byte of DBUF where its report stages none for it. -/
theorem finish_dbufByte_of_none {r : Report} {j : BitVec 4} (s : State) (h : ∀ b, .dbuf j b ∉ r.staged) :
    (s.finish r).dbufByte j = s.dbufByte j := by
  have hAfter : (s.finish r).dbufByte j = (r.dbufAfter s)[j.toFin] := by rw [State.finish_eq]; rfl
  rw [hAfter, Report.dbufAfter]
  split
  · exact State.commit_dbufByte_of_none _ j s h
  · rfl

/-- A line command stages what its body stages, or nothing. -/
theorem mem_staged_lineCommand {s : State} {x : Line} {legal : Bool} {body : Report} {w : Staged}
    (h : w ∈ (s.lineCommand x legal body).staged) : w ∈ body.staged := by
  rcases s.lineCommand_cases x legal body with hRaise | hBody
  · rw [hRaise] at h
    cases h
  · rwa [hBody] at h

theorem mem_staged_resultOrInvalid {o : Option Nat} {w : Staged} (h : w ∈ (resultOrInvalid o).staged) : ∃ v, w = .result v := by
  cases o with
  | none => cases h
  | some v => exact ⟨_, List.mem_singleton.1 h⟩

/-- The commands whose rule writes RESULT (10_state.md R37). -/
def WritesResult : Instr → Prop
  | .owReset | .owRdbit | .owRdbyte _ | .pwBit | .bcdDec _ | .bcdEnc _ | .dow | .chkCrc8 _ | .chkSum8 _ => True
  | .nop | .owWrbit | .owWrbyte | .pwSync | .pwFrame _ => False

/-- What a command may stage: RESULT where it writes it, the byte OW_RDBYTE names, the bytes 0 to 4 of PW_FRAME. -/
def Staged.AllowedBy (i : Instr) : Staged → Prop
  | .result _ => WritesResult i
  | .dbuf j _ => i = .owRdbyte j ∨ (∃ sel, i = .pwFrame sel) ∧ j.toNat < 5

theorem allowed_pwBit {s : State} {w : Staged} (h : w ∈ (pwBitReport s).staged) : w.AllowedBy .pwBit := by
  have hMem := mem_staged_lineCommand h
  split at hMem
  · rw [List.mem_singleton.1 hMem]; trivial
  · split at hMem
    · rw [List.mem_singleton.1 hMem]; trivial
    · cases hMem
  · cases hMem

theorem allowed_pwFrame {s : State} {sel : BitVec 4} {w : Staged} (h : w ∈ (pwFrameReport sel s).staged) :
    w.AllowedBy (.pwFrame sel) := by
  simp only [pwFrameReport] at h
  split at h
  · have hMem := mem_staged_lineCommand h
    split at hMem
    · cases hMem
    · split at hMem
      · simp only [frameWrites, List.mem_cons, List.not_mem_nil, or_false] at hMem
        rcases hMem with rfl | rfl | rfl | rfl | rfl
        all_goals exact .inr ⟨⟨sel, rfl⟩, by decide⟩
      · cases hMem
  · cases h

/-- Each command stages only what its rule allows (10_state.md R37, R39). -/
theorem allowed_of_mem_staged {i : Instr} {s : State} {w : Staged} (h : w ∈ (commandReport i s).staged) : w.AllowedBy i := by
  cases i with
  | nop => cases h
  | owWrbit | owWrbyte => cases mem_staged_lineCommand h
  | owReset | owRdbit =>
    rw [List.mem_singleton.1 (mem_staged_lineCommand h)]
    trivial
  | owRdbyte j =>
    have hMem := mem_staged_lineCommand h
    simp only [List.mem_cons, List.not_mem_nil, or_false] at hMem
    rcases hMem with rfl | rfl
    · trivial
    · exact .inl rfl
  | pwSync =>
    have hMem := mem_staged_lineCommand h
    split at hMem <;> cases hMem
  | pwBit => exact allowed_pwBit h
  | pwFrame sel => exact allowed_pwFrame h
  | bcdDec | bcdEnc =>
    simp only [commandReport, bcdDecReport, bcdEncReport] at h
    split at h
    · obtain ⟨v, rfl⟩ := mem_staged_resultOrInvalid h
      trivial
    · cases h
  | dow =>
    obtain ⟨v, rfl⟩ := mem_staged_resultOrInvalid h
    trivial
  | chkCrc8 | chkSum8 =>
    rw [List.mem_singleton.1 h]
    trivial

/-- Settles O15: completion changes RESULT and DBUF by the staged writes alone, and a command stages only what its rule allows. -/
theorem commandEffectsAreConfined : Obligations.CommandEffectsAreConfined := by
  refine fun i s => ⟨_, (commandReport i s).ovfSeen, exec_eq i s, ?frame, fun hNone => ?result, fun j hByte hFrame => ?dbuf⟩
  case frame => rw [State.finish_eq]; rfl
  case result =>
    refine finish_result_of_none s fun v hMem => ?_
    have hWrites : WritesResult i := allowed_of_mem_staged hMem
    rcases hNone with rfl | rfl | rfl | rfl | ⟨sel, rfl⟩ <;> exact hWrites
  case dbuf =>
    refine finish_dbufByte_of_none s fun b hMem => ?_
    rcases (allowed_of_mem_staged hMem : Staged.AllowedBy i (.dbuf j b)) with hRead | ⟨⟨sel, hSel⟩, hLow⟩
    · exact hByte hRead
    · exact absurd hLow (Nat.not_lt.2 (hFrame sel hSel))

theorem State.commit_result_congr (ws : List Staged) {s s' : State} (h : s.result = s'.result) :
    (s.commit ws).result = (s'.commit ws).result := by
  induction ws generalizing s s' with
  | nil => exact h
  | cons w ws ih =>
    cases w with
    | result v => exact ih rfl
    | dbuf i b => exact ih h

theorem State.commit_dbuf_congr (ws : List Staged) {s s' : State} (h : s.dbuf = s'.dbuf) :
    (s.commit ws).dbuf = (s'.commit ws).dbuf := by
  induction ws generalizing s s' with
  | nil => exact h
  | cons w ws ih =>
    cases w with
    | result v => exact ih h
    | dbuf i b => exact ih (congrArg (fun d : Vector Byte 16 => d.set i.toFin b i.toFin.isLt) h)

theorem finish_result_congr (r : Report) {s s' : State} (h : s.result = s'.result) :
    (s.finish r).result = (s'.finish r).result := by
  rw [State.finish_eq, State.finish_eq, State.completedWith_result, State.completedWith_result, Report.resultAfter,
    Report.resultAfter, State.commit_result_congr _ h, h]

theorem finish_dbuf_congr (r : Report) {s s' : State} (h : s.dbuf = s'.dbuf) : (s.finish r).dbuf = (s'.finish r).dbuf := by
  rw [State.finish_eq, State.finish_eq, State.completedWith_dbuf, State.completedWith_dbuf, Report.dbufAfter,
    Report.dbufAfter, State.commit_dbuf_congr _ h, h]

/-- Settles O48: the two reports are one, and a completion leaves RESULT, DBUF and OVF by the report and what they held. -/
theorem commandReadsOnlyItsLatch : Obligations.CommandReadsOnlyItsLatch := by
  intro i s s' hLatch hOw hPw hExt
  have hReport := commandReport_congr hLatch hOw hPw (funext₂ hExt) i
  refine ⟨_, _, exec_eq i s, exec_eq i s', ?_⟩
  rw [← hReport]
  refine ⟨?err, finish_result_congr _, finish_dbuf_congr _, fun hOvf => ?ovf, rfl, rfl, rfl, rfl, rfl, rfl⟩
  case err => rw [State.finish_err, State.finish_err]
  case ovf => rw [State.finish_ovf, State.finish_ovf, hOvf]

end Sys2Proof.Machine
end

section
/-! PW_FRAME (42_pulse_width.md R241 to R250): its body from the tick where Sync begins, the pulses of a frame one after another,
the bytes they pack into, and the bounds of all PW commands. -/

namespace Sys2Proof.Machine

/-- How PW_FRAME reports the end of its measurements (42_pulse_width.md R249). -/
def FrameEnd.report : FrameEnd → Report
  | .captured bits ovf next => ⟨.ok, frameWrites bits, ovf, some next⟩
  | .timedOut ovf next => ⟨.timeout, [], ovf, some next⟩

/-- The tick after the last one PW_FRAME examines. -/
def FrameEnd.ticks : FrameEnd → Nat
  | .captured _ _ next => next
  | .timedOut _ next => next

@[simp] theorem FrameEnd.report_ticks (e : FrameEnd) : e.report.ticks = some e.ticks := by cases e <;> rfl

/-- What PW_FRAME reports, by how Sync ends (42_pulse_width.md R249). -/
def frameAfterSync (L : Latch) (line : Nat → Bool) : SyncEnd → Report
  | .noDevice last => ⟨.nodev, [], false, some (last + 1)⟩
  | .synced next => (measureBits L line 40 next [] false).report

/-- The body of PW_FRAME with its sync phase at tick `start` (42_pulse_width.md R249). -/
def frameBody (L : Latch) (line : Nat → Bool) (start : Nat) : Report := frameAfterSync L line (syncPhase L line start)

/-- The levels PW_FRAME sees: the outside ones, and low while it drives the start signal (40_common.md R157). -/
def State.frameLine (sel : BitVec 4) (s : State) : Nat → Bool := s.lineLevel .pw (pwFrameDrive sel s.latch)

/-- PW_FRAME with a legal SEL is its opening checks and its body (42_pulse_width.md R249). -/
theorem commandReport_pwFrame {sel : BitVec 4} (s : State) (h : sel.toNat ≤ 1) :
    commandReport (.pwFrame sel) s = s.lineCommand .pw (pwFrameTiming sel s.latch)
      (frameBody s.latch (s.frameLine sel) (frameSyncStart sel s.latch)) := by
  refine (if_pos h).trans (congrArg (s.lineCommand .pw (pwFrameTiming sel s.latch)) ?_)
  unfold frameBody State.frameLine
  cases syncPhase s.latch (s.lineLevel .pw (pwFrameDrive sel s.latch)) (frameSyncStart sel s.latch) with
  | noDevice last => rfl
  | synced next =>
    unfold frameAfterSync
    cases measureBits s.latch (s.lineLevel .pw (pwFrameDrive sel s.latch)) 40 next [] false <;> rfl

theorem pwFrameTiming_eq_true_iff (sel : BitVec 4) (L : Latch) : pwFrameTiming sel L = true ↔ TimingLegal L (.pwFrame sel) := by
  simp only [pwFrameTiming, frameStart, TimingLegal, Bool.and_eq_true, Bool.or_eq_true, decide_eq_true_eq, and_assoc]
  cases sel.getLsbD 0 <;> simp

/-- Sync and the forty measurements end within their budgets (42_pulse_width.md R250). -/
theorem frameBody_ticks {L : Latch} (line : Nat → Bool) (s : Nat) (hSync : 1 ≤ L.tSync.toNat) (hMax : 1 ≤ L.tPwmax.toNat) :
    ∃ d, 1 ≤ d ∧ d ≤ s + 3 * L.tSync.toNat + 40 * (L.tSync.toNat + L.tPwmax.toNat) ∧
      (frameBody L line s).ticks = some d := by
  unfold frameBody
  obtain ⟨hSynced, hLost⟩ := syncPhase_bounds L line s hSync
  cases hEnd : syncPhase L line s with
  | noDevice last =>
    have := hLost last hEnd
    exact ⟨last + 1, by omega, by omega, rfl⟩
  | synced next =>
    have hNext := hSynced next hEnd
    obtain ⟨hCaptured, hTimedOut⟩ := measureBits_bounds L line hSync hMax 40 next [] false
    refine ⟨_, ?_, ?_, FrameEnd.report_ticks _⟩ <;> cases hBits : measureBits L line 40 next [] false with
    | captured bits ovf last => have := hCaptured _ _ _ hBits; simp only [FrameEnd.ticks]; omega
    | timedOut ovf last => have := hTimedOut _ _ hBits; simp only [FrameEnd.ticks]; omega

theorem pwFrame_ticks_le {s : State} {sel : BitVec 4} {d : Nat} (hSel : sel.toNat ≤ 1)
    (h : (commandReport (.pwFrame sel) s).ticks = some d) :
    d ≤ frameSyncStart sel s.latch + 3 * s.latch.tSync.toNat + 40 * (s.latch.tSync.toNat + s.latch.tPwmax.toNat) := by
  rw [commandReport_pwFrame s hSel] at h
  obtain ⟨hLegal, hTicks⟩ := State.lineCommand_ticks h
  obtain ⟨hSync, hMax, -⟩ := (pwFrameTiming_eq_true_iff sel s.latch).1 hLegal
  obtain ⟨d', -, hLe, hSome⟩ := frameBody_ticks (s.frameLine sel) (frameSyncStart sel s.latch)
    hSync hMax
  obtain rfl : d = d' := Option.some.inj (hTicks.symm.trans hSome)
  exact hLe

/-- The tick after the last one a bit measurement examines. -/
def BitEnd.ticks : BitEnd → Nat
  | .bit _ _ next => next
  | .overflow next => next
  | .startTimeout last => last + 1

/-- A run of PW_SYNC with ticks passed the timing check and ends with Sync (42_pulse_width.md R247). -/
theorem pwSync_ticks {s : State} {d : Nat} (h : (commandReport .pwSync s).ticks = some d) :
    1 ≤ s.latch.tSync.toNat ∧ (syncPhase s.latch (s.lineLevel .pw noDrive) 0).ticks = d := by
  obtain ⟨hLegal, hTicks⟩ := State.lineCommand_ticks h
  refine ⟨(pwSyncTiming_eq_true_iff _).1 hLegal, ?_⟩
  cases hEnd : syncPhase s.latch (s.lineLevel .pw noDrive) 0 with
  | synced | noDevice => rw [hEnd] at hTicks; exact Option.some.inj hTicks

/-- A run of PW_BIT with ticks passed the timing check and ends with its measurement (42_pulse_width.md R248). -/
theorem pwBit_ticks {s : State} {d : Nat} (h : (commandReport .pwBit s).ticks = some d) :
    (1 ≤ s.latch.tSync.toNat ∧ 1 ≤ s.latch.tPwmax.toNat) ∧ (measureBit s.latch (s.lineLevel .pw noDrive) 0).ticks = d := by
  obtain ⟨hLegal, hTicks⟩ := State.lineCommand_ticks h
  refine ⟨(pwBitTiming_eq_true_iff _).1 hLegal, ?_⟩
  cases hEnd : measureBit s.latch (s.lineLevel .pw noDrive) 0 with
  | bit | startTimeout => rw [hEnd] at hTicks; exact Option.some.inj hTicks
  | overflow next =>
    rw [hEnd] at hTicks
    cases hToz : s.latch.toz with
    | true | false => rw [hToz] at hTicks; exact Option.some.inj hTicks

theorem pwSync_ticks_le {s : State} {d : Nat} (h : (commandReport .pwSync s).ticks = some d) : d ≤ 3 * s.latch.tSync.toNat := by
  obtain ⟨hSync, rfl⟩ := pwSync_ticks h
  obtain ⟨hSynced, hLost⟩ := syncPhase_bounds s.latch (s.lineLevel .pw noDrive) 0 hSync
  cases hEnd : syncPhase s.latch (s.lineLevel .pw noDrive) 0 with
  | synced next => have := hSynced next hEnd; simp only [SyncEnd.ticks]; omega
  | noDevice last => have := hLost last hEnd; simp only [SyncEnd.ticks]; omega

theorem pwBit_ticks_le {s : State} {d : Nat} (h : (commandReport .pwBit s).ticks = some d) :
    d ≤ s.latch.tSync.toNat + s.latch.tPwmax.toNat := by
  obtain ⟨⟨hSync, hMax⟩, rfl⟩ := pwBit_ticks h
  obtain ⟨hBit, hOverflow, hTimeout⟩ := measureBit_bounds s.latch (s.lineLevel .pw noDrive) 0 hSync hMax
  cases hEnd : measureBit s.latch (s.lineLevel .pw noDrive) 0 with
  | bit b width next => have := hBit b width next hEnd; simp only [BitEnd.ticks]; omega
  | overflow next => have := hOverflow next hEnd; simp only [BitEnd.ticks]; omega
  | startTimeout last => have := hTimeout last hEnd; simp only [BitEnd.ticks]; omega

/-- Settles O26: the budgets of Sync and of each measurement, after the start signal of PW_FRAME. -/
theorem pwDurationsAreBounded : Obligations.PwDurationsAreBounded := by
  refine fun s d => ⟨pwSync_ticks_le, pwBit_ticks_le, fun h => ?_, fun h => ?_⟩
  · simpa [frameSyncStart, frameStart] using pwFrame_ticks_le (by decide) h
  · simpa [frameSyncStart, frameStart] using pwFrame_ticks_le (by decide) h

theorem FirstAt.le {line : Nat → Bool} {lvl : Bool} {s t : Nat} (h : FirstAt line lvl s t) : s ≤ t := h.1

theorem FirstAt.congr {line line' : Nat → Bool} {lvl : Bool} {s t : Nat} (hLine : ∀ u, s ≤ u → line u = line' u)
    (h : FirstAt line lvl s t) : FirstAt line' lvl s t := by
  obtain ⟨hFrom, hAt, hBefore⟩ := h
  exact ⟨hFrom, (hLine t hFrom).symm.trans hAt, fun u hu hut => (hLine u hu).symm.trans (hBefore u hu hut)⟩

theorem Holds.congr {line line' : Nat → Bool} {lvl : Bool} {s e : Nat} (hLine : ∀ u, s ≤ u → line u = line' u)
    (h : Holds line lvl s e) : Holds line' lvl s e := fun u hu hue => (hLine u hu).symm.trans (h u hu hue)

theorem SyncShown.congr {L : Latch} {line line' : Nat → Bool} {s t3 : Nat} (hLine : ∀ u, s ≤ u → line u = line' u)
    (h : SyncShown L line s t3) : SyncShown L line' s t3 := by
  obtain ⟨t1, t2, hLow, hIn1, hHigh, hIn2, hLow', hIn3⟩ := h
  have h1 := hLow.le
  have h2 := hHigh.le
  exact ⟨t1, t2, hLow.congr hLine, hIn1, hHigh.congr fun u hu => hLine u (by omega), hIn2,
    hLow'.congr fun u hu => hLine u (by omega), hIn3⟩

theorem PulseShown.congr {L : Latch} {line line' : Nat → Bool} {s r q : Nat} {hit : Bool}
    (hLine : ∀ u, s ≤ u → line u = line' u) (h : PulseShown L line s r q hit) : PulseShown L line' s r q hit := by
  obtain ⟨hRise, hIn, hEnd⟩ := h
  have hFrom := hRise.le
  refine ⟨hRise.congr hLine, hIn, ?_⟩
  cases hit with
  | true => exact hEnd.imp_right fun hHigh => hHigh.congr fun u hu => hLine u (by omega)
  | false => exact hEnd.imp_left fun hFall => hFall.congr fun u hu => hLine u (by omega)

/-- A pulse ends at or after its start. -/
theorem PulseShown.start_le {L : Latch} {line : Nat → Bool} {s r q : Nat} {hit : Bool} (h : PulseShown L line s r q hit) :
    s ≤ q := by
  obtain ⟨⟨hFrom, -⟩, -, hEnd⟩ := h
  cases hit with
  | true =>
    obtain ⟨hq, -⟩ := hEnd
    omega
  | false =>
    obtain ⟨⟨hFall, -⟩, -⟩ := hEnd
    omega

/-- The bit a shown pulse stands for: no pulse that hit the bound, and longer than the threshold (42_pulse_width.md R240, R243). -/
def pulseBit (L : Latch) (r q : Nat) (hit : Bool) : Bool := !hit && decide (L.tThr.toNat < q - r)

/-- One turn of the loop over a frame's bits, on a shown pulse (42_pulse_width.md R249, R243). -/
theorem measureBits_pulse {L : Latch} {line : Nat → Bool} {s r q : Nat} {hit : Bool} (h : PulseShown L line s r q hit)
    (hToz : hit = true → L.toz = true) (n : Nat) (bits : List Bool) (ovf : Bool) :
    measureBits L line (n + 1) s bits ovf = measureBits L line n (q + 1) (bits ++ [pulseBit L r q hit]) (ovf || hit) := by
  obtain ⟨hRise, hIn, hEnd⟩ := h
  cases hit with
  | true =>
    obtain ⟨rfl, hHigh⟩ := hEnd
    simp [measureBits, measureBit_overflow hRise hIn hHigh, hToz, pulseBit]
  | false =>
    obtain ⟨hFall, hBound⟩ := hEnd
    simp [measureBits, measureBit_pulse hRise hIn hFall hBound, pulseBit]

/-- `n` shown pulses, one after another, leave the loop at the start of the next with their bits received and OVF where one hit the
bound. -/
theorem measureBits_pulses {L : Latch} {line : Nat → Bool} {t3 : Nat} {r q : Nat → Nat} {hit : Nat → Bool} (n : Nat)
    (hPulse : ∀ j, j < n → PulseShown L line (bitStartTick t3 q j) (r j) (q j) (hit j) ∧ (hit j = true → L.toz = true))
    (rest : Nat) :
    measureBits L line (n + rest) (t3 + 1) [] false =
      measureBits L line rest (bitStartTick t3 q n) ((List.range n).map fun j => pulseBit L (r j) (q j) (hit j))
        ((List.range n).any hit) := by
  induction n generalizing rest with
  | zero => rw [Nat.zero_add]; rfl
  | succ n ih =>
    obtain ⟨hShown, hToz⟩ := hPulse n (Nat.lt_succ_self n)
    rw [Nat.add_assoc, Nat.add_comm 1 rest, ih (fun j hj => hPulse j (Nat.lt_succ_of_lt hj)), measureBits_pulse hShown hToz,
      List.range_succ, List.map_append, List.any_append]
    simp [bitStartTick]

theorem FrameShown.sync_le {s : State} {sel : BitVec 4} {n t3 : Nat} {r q : Nat → Nat} {hit : Nat → Bool}
    (h : FrameShown s sel n t3 r q hit) : frameSyncStart sel s.latch ≤ t3 := by
  obtain ⟨⟨t1, t2, hLow, -, hHigh, -, hLow', -⟩, -⟩ := h
  have h1 : frameSyncStart sel s.latch ≤ t1 := hLow.le
  have h2 := hHigh.le
  have h3 := hLow'.le
  omega

/-- Every measurement of a shown frame starts after the sync phase. -/
theorem FrameShown.sync_lt_bitStart {s : State} {sel : BitVec 4} {n t3 : Nat} {r q : Nat → Nat} {hit : Nat → Bool}
    (h : FrameShown s sel n t3 r q hit) {j : Nat} (hj : j ≤ n) : t3 < bitStartTick t3 q j := by
  induction j with
  | zero => exact Nat.lt_succ_self t3
  | succ j ih =>
    have hStart := ih (by omega)
    have hEnd := (h.2 j (by omega)).1.start_le
    have hNext : bitStartTick t3 q (j + 1) = q j + 1 := rfl
    omega

/-- The line PW_FRAME samples, from the start of its sync phase on, is the outside level (42_pulse_width.md R246). -/
theorem ext_eq_frameLine (s : State) (sel : BitVec 4) (u : Nat) (h : frameSyncStart sel s.latch ≤ u) :
    s.ext .pw u = s.frameLine sel u := (s.lineLevel_frame h).symm

/-- After a shown sync phase and `n` shown pulses PW_FRAME is at the start of bit `n`, with `rest` bits to come. -/
theorem frame_after_pulses {s : State} {sel : BitVec 4} {n t3 : Nat} {r q : Nat → Nat} {hit : Nat → Bool}
    (h : FrameShown s sel n t3 r q hit) {rest : Nat} (hForty : n + rest = 40) :
    frameBody s.latch (s.frameLine sel) (frameSyncStart sel s.latch) =
      (measureBits s.latch (s.frameLine sel) rest (bitStartTick t3 q n)
        ((List.range n).map fun j => pulseBit s.latch (r j) (q j) (hit j)) ((List.range n).any hit)).report := by
  have hLine := ext_eq_frameLine s sel
  have hAfter := h.sync_le
  obtain ⟨t1, t2, hLow, hIn1, hHigh, hIn2, hLow', hIn3⟩ := h.1.congr hLine
  have hPulses (j : Nat) (hj : j < n) : PulseShown s.latch (s.frameLine sel) (bitStartTick t3 q j)
      (r j) (q j) (hit j) ∧ (hit j = true → s.latch.toz = true) := by
    have hStart := h.sync_lt_bitStart hj.le
    exact (h.2 j hj).imp_left fun hShown => hShown.congr fun u hu => hLine u (by omega)
  rw [frameBody, syncPhase_synced (s := frameSyncStart sel s.latch) hLow hIn1 hHigh hIn2 hLow' hIn3,
    frameAfterSync, ← hForty, measureBits_pulses n hPulses]

theorem FrameReady.tSync_pos {s : State} {sel : BitVec 4} (h : FrameReady s sel) : 1 ≤ s.latch.tSync.toNat := by
  obtain ⟨-, -, hSync, -⟩ := h
  exact hSync

/-- PW_FRAME that passes its checks ends as its body ends (60_exceptions.md R351). -/
theorem pwFrame_ends {s : State} {sel : BitVec 4} {body : Report} (hReady : FrameReady s sel)
    (hBody : frameBody s.latch (s.frameLine sel) (frameSyncStart sel s.latch) = body) :
    exec (.pwFrame sel) s = .next (s.finish body) ∧ (commandReport (.pwFrame sel) s).ticks = body.ticks := by
  obtain ⟨hSel, hFree, hTiming⟩ := hReady
  subst hBody
  exact lineCommand_ends_body (commandReport_pwFrame s hSel) hFree ((pwFrameTiming_eq_true_iff sel s.latch).2 hTiming)

/-- Five writes put the packed bytes into `DBUF[0..4]` and leave the bytes above (42_pulse_width.md R249). -/
theorem commit_frameWrites (bits : List Bool) (s : State) :
    (s.commit (frameWrites bits)).result = s.result ∧
      (∀ k, k < 5 → (s.commit (frameWrites bits)).dbufByte (BitVec.ofNat 4 k) = packedByte bits k) ∧
      ∀ j : BitVec 4, 5 ≤ j.toNat → (s.commit (frameWrites bits)).dbufByte j = s.dbufByte j := by
  refine ⟨State.commit_result_of_none _ s (by simp [frameWrites]), fun k hk => ?_,
    fun j hj => State.commit_dbufByte_of_none _ j s fun b hMem => ?_⟩
  · simp only [frameWrites, State.commit_cons, State.commit_nil, Staged.apply, State.dbufByte_setDbuf]
    interval_cases k <;> simp
  · simp only [frameWrites, List.mem_cons, List.not_mem_nil, or_false] at hMem
    rcases hMem with h | h | h | h | h
    all_goals cases h; exact absurd hj (by decide)

/-- The completion of a captured frame: RESULT stays, the bytes go to DBUF (42_pulse_width.md R249). -/
theorem finish_captured (bits : List Bool) (ovf : Bool) (next : Nat) (s : State) :
    s.finish (FrameEnd.captured bits ovf next).report = s.completedWith .ok ovf s.result (s.commit (frameWrites bits)).dbuf := by
  obtain ⟨hResult, -, -⟩ := commit_frameWrites bits s
  simp only [State.finish_eq, FrameEnd.report, Report.resultAfter, Report.dbufAfter, ErrCode.commits, if_true, hResult]

theorem receivedBit_map_range {n j : Nat} (f : Nat → Bool) (h : j < n) : receivedBit ((List.range n).map f) j = f j := by
  simp [receivedBit, h]

/-- Settles O24: the forty pulses leave the loop with their bits, which pack into five bytes, most-significant bit first. -/
theorem pwFrameCapturesFortyBits : Obligations.PwFrameCapturesFortyBits := by
  intro s sel t3 r q hit hReady hShown
  obtain ⟨hExec, hTicks⟩ := pwFrame_ends hReady (frame_after_pulses hShown (rest := 0) rfl)
  rw [measureBits, finish_captured] at hExec
  generalize hBits : (List.range 40).map (fun j => pulseBit s.latch (r j) (q j) (hit j)) = bits at hExec
  obtain ⟨-, hLow, hHigh⟩ := commit_frameWrites bits s
  refine ⟨_, hExec, rfl, fun k m hk hm => ?packed, hHigh, hTicks⟩
  case packed =>
    have hReceived : receivedBit bits (8 * k + m) = pulseBit s.latch (r (8 * k + m)) (q (8 * k + m)) (hit (8 * k + m)) := by
      rw [← hBits, receivedBit_map_range _ (by omega)]
    have hBit := packedByte_getLsbD bits k m hm
    rw [← hLow k hk, hReceived] at hBit
    exact hBit

/-- Sync that loses the device ends PW_FRAME with NODEV, at the tick where the wait expires (42_pulse_width.md R242, R249). -/
theorem pwFrame_ends_nodev {s : State} {sel : BitVec 4} {t : Nat} (hReady : FrameReady s sel)
    (hLost : syncPhase s.latch (s.frameLine sel) (frameSyncStart sel s.latch) =
      .noDevice (t + s.latch.tSync.toNat - 1)) :
    exec (.pwFrame sel) s = .next (s.completedWith .nodev false s.result s.dbuf) ∧
      (commandReport (.pwFrame sel) s).ticks = some (t + s.latch.tSync.toNat) := by
  have hSync := hReady.tSync_pos
  obtain ⟨hExec, hTicks⟩ := pwFrame_ends hReady rfl
  rw [frameBody, hLost, frameAfterSync] at hExec hTicks
  rw [State.finish_nothing] at hExec
  exact ⟨hExec, hTicks.trans (congrArg some (by omega))⟩

/-- PW_FRAME that fails after `n` captured bits ends with TIMEOUT (42_pulse_width.md R241, R249). -/
theorem pwFrame_ends_timeout {s : State} {sel : BitVec 4} {n t3 next : Nat} {r q : Nat → Nat} {hit : Nat → Bool} {ovf : Bool}
    (hReady : FrameReady s sel) (hn : n < 40) (hShown : FrameShown s sel n t3 r q hit)
    (hEnd : ∀ rest bits, measureBits s.latch (s.frameLine sel) (rest + 1) (bitStartTick t3 q n) bits
      ((List.range n).any hit) = .timedOut ovf next) :
    exec (.pwFrame sel) s = .next (s.completedWith .timeout ovf s.result s.dbuf) ∧
      (commandReport (.pwFrame sel) s).ticks = some next := by
  have hBody := frame_after_pulses hShown (rest := 39 - n + 1) (by omega)
  rw [hEnd] at hBody
  obtain ⟨hExec, hTicks⟩ := pwFrame_ends hReady hBody
  rw [FrameEnd.report, State.finish_nothing] at hExec
  exact ⟨hExec, hTicks⟩

theorem measureBits_startTimeout {L : Latch} {line : Nat → Bool} {s : Nat} (hSync : 1 ≤ L.tSync.toNat)
    (hStuck : Holds line false s (s + L.tSync.toNat)) (rest : Nat) (bits : List Bool) (ovf : Bool) :
    measureBits L line (rest + 1) s bits ovf = .timedOut ovf (s + L.tSync.toNat) := by
  simp only [measureBits, measureBit_startTimeout hStuck, FrameEnd.timedOut.injEq, true_and]
  omega

theorem measureBits_hit {L : Latch} {line : Nat → Bool} {s r q : Nat} (hToz : L.toz = false) (h : PulseShown L line s r q true)
    (rest : Nat) (bits : List Bool) (ovf : Bool) : measureBits L line (rest + 1) s bits ovf = .timedOut true (q + 1) := by
  obtain ⟨hRise, hIn, rfl, hHigh⟩ := h
  simp [measureBits, measureBit_overflow hRise hIn hHigh, hToz]

theorem pwFrameTiming_illegal {s : State} {sel : BitVec 4} (hSel : sel.toNat ≤ 1)
    (hBad : s.latch.tSync.toNat = 0 ∨ s.latch.tPwmax.toNat = 0 ∨ (sel = 1#4 ∧ s.latch.tStart.toNat = 0)) :
    pwFrameTiming sel s.latch = false := by
  rw [← Bool.not_eq_true, pwFrameTiming_eq_true_iff]
  rintro ⟨hSync, hMax, hStart⟩
  rcases hBad with h | h | ⟨rfl, h⟩
  · omega
  · omega
  · have := hStart rfl
    omega

/-- Settles O25: the words, the checks, the waits of Sync, and the two ways a measurement fails after `n` captured bits. -/
theorem pwFrameFailsWhole : Obligations.PwFrameFailsWhole := by
  refine ⟨fun w hOp => endsIllegal_of_boundedSel (fun _ => rfl) (fun _ => rfl) hOp,
    fun s sel hIllegal => exec_of_raise (if_neg (Nat.not_le.2 hIllegal)), fun s sel hSel hBad => ?badcfg,
    fun s sel hReady => ?nodev, fun s sel n t3 r q hit hReady hn hShown => ?timeout, fun sel L t => ⟨rfl, ?drive⟩⟩
  case badcfg =>
    exact (lineCommand_ends_badcfg (commandReport_pwFrame s hSel) (hBad.imp_right (pwFrameTiming_illegal hSel))).1
  case nodev =>
    intro b line s0 lost
    have hLine := ext_eq_frameLine s sel
    refine ⟨fun hStuck => ?_, fun t1 hLow hIn1 hStuck => ?_, fun t1 t2 hLow hIn1 hHigh hIn2 hStuck => ?_⟩
    · exact pwFrame_ends_nodev hReady (syncPhase_expires_first (hStuck.congr hLine))
    · have h1 : frameSyncStart sel s.latch ≤ t1 := hLow.le
      exact pwFrame_ends_nodev hReady (syncPhase_expires_second (hLow.congr hLine) hIn1
        (hStuck.congr fun u hu => hLine u (by omega)))
    · have h1 : frameSyncStart sel s.latch ≤ t1 := hLow.le
      have h2 := hHigh.le
      exact pwFrame_ends_nodev hReady (syncPhase_expires_third (hLow.congr hLine) hIn1
        (hHigh.congr fun u hu => hLine u (by omega)) hIn2 (hStuck.congr fun u hu => hLine u (by omega)))
  case timeout =>
    intro start
    have hSync := hReady.tSync_pos
    have hLine (u : Nat) (hu : start ≤ u) : s.ext .pw u = s.frameLine sel u :=
      ext_eq_frameLine s sel u ((hShown.sync_le.trans (hShown.sync_lt_bitStart le_rfl).le).trans hu)
    exact ⟨fun hStuck => pwFrame_ends_timeout hReady hn hShown fun rest bits =>
        measureBits_startTimeout hSync (hStuck.congr hLine) rest bits _,
      fun hToz hHit => pwFrame_ends_timeout hReady hn hShown fun rest bits => measureBits_hit hToz (hHit.congr hLine) rest bits _⟩
  case drive => simp [commandDrive, pwFrameDrive, frameStart]

end Sys2Proof.Machine
end

section
/-! The checks before a command's body, the codes its body can end with, and its duration (40_common.md R153, R156; 60_exceptions.md
R350, R351). -/

namespace Sys2Proof.Machine

/-- The codes the body of a well-formed command can end with: those of 60_exceptions.md R350 but for the two of the checks. -/
def bodyCodes : Instr → List ErrCode
  | .nop | .owReset | .owWrbit | .owRdbit | .owWrbyte | .owRdbyte _ => [.ok]
  | .pwSync => [.ok, .nodev]
  | .pwBit => [.ok, .timeout]
  | .pwFrame _ => [.ok, .nodev, .timeout]
  | .bcdDec _ | .bcdEnc _ | .dow => [.ok, .invalid]
  | .chkCrc8 _ | .chkSum8 _ => [.ok, .corrupt]

theorem illegal_notMem_bodyCodes (i : Instr) : ErrCode.illegal ∉ bodyCodes i := by cases i <;> simp [bodyCodes]

theorem badcfg_notMem_bodyCodes (i : Instr) : ErrCode.badcfg ∉ bodyCodes i := by cases i <;> simp [bodyCodes]

/-- A SEL outside R122 ends with ILLEGAL before anything else (60_exceptions.md R351). -/
theorem commandReport_of_not_wellFormed {i : Instr} (s : State) (h : ¬ i.WellFormed) : commandReport i s = .raise .illegal := by
  cases i with
  | pwFrame sel => exact if_neg fun hSel => h (decide_eq_true hSel)
  | bcdDec sel => exact bcdDecReport_illegal s (Nat.not_le.1 fun hSel => h (decide_eq_true hSel))
  | bcdEnc sel => exact bcdEncReport_illegal s (Nat.not_le.1 fun hSel => h (decide_eq_true hSel))
  | _ => exact absurd rfl h

theorem resultOrInvalid_code_mem (o : Option Nat) : (resultOrInvalid o).code ∈ [ErrCode.ok, .invalid] := by
  cases o <;> simp [resultOrInvalid, Report.compute, Report.raise]

theorem checkAgainst_code_mem (c check : Byte) : (checkAgainst c check).code ∈ [ErrCode.ok, .corrupt] := by
  unfold checkAgainst Report.compute
  split <;> simp

/-- A compute command ends with a code of its body (40_common.md R156). -/
theorem computeReport_code_mem {i : Instr} (s : State) (h : i.WellFormed) (hCompute : lineOf i = none) :
    (commandReport i s).code ∈ bodyCodes i := by
  cases i with
  | nop => exact List.mem_singleton_self _
  | bcdDec sel =>
    obtain ⟨f, hField, -⟩ := BcdField.ofSel_legal (of_decide_eq_true h)
    rw [commandReport, bcdDecReport_field s hField]
    exact resultOrInvalid_code_mem _
  | bcdEnc sel =>
    obtain ⟨f, hField, -⟩ := BcdField.ofSel_legal (of_decide_eq_true h)
    rw [commandReport, bcdEncReport_field s hField]
    exact resultOrInvalid_code_mem _
  | dow => exact resultOrInvalid_code_mem _
  | chkCrc8 | chkSum8 => exact checkAgainst_code_mem _ _
  | _ => nomatch hCompute

/-- The body of a line command, as its checks see it: the timing they test, and what a body that passed them ends with. -/
structure LineBody (i : Instr) (s : State) (x : Line) (legal : Bool) (body : Report) : Prop where
  report : commandReport i s = s.lineCommand x legal body
  legal_iff : legal = true ↔ TimingLegal s.latch i
  code_mem : body.code ∈ bodyCodes i
  ticks : TimingLegal s.latch i → ∃ d, 1 ≤ d ∧ body.ticks = some d

theorem lineBody_pwSync (s : State) : ∃ legal body, LineBody .pwSync s .pw legal body := by
  refine ⟨_, _, rfl, pwSyncTiming_eq_true_iff _, ?code, fun hLegal => ?ticks⟩
  case code => split <;> simp [bodyCodes]
  case ticks =>
    split
    case h_1 n hEnd =>
      have hPos := ((syncPhase_bounds _ _ 0 hLegal).1 n hEnd).1
      exact ⟨n, by omega, rfl⟩
    case h_2 e hEnd => exact ⟨e + 1, Nat.le_add_left _ _, rfl⟩

theorem lineBody_pwBit (s : State) : ∃ legal body, LineBody .pwBit s .pw legal body := by
  refine ⟨_, _, rfl, pwBitTiming_eq_true_iff _, ?code, fun hLegal => ?ticks⟩
  case code =>
    split
    case h_1 => simp [bodyCodes]
    case h_2 => split <;> simp [bodyCodes]
    case h_3 => simp [bodyCodes]
  case ticks =>
    obtain ⟨hBit, hOverflow, -⟩ := measureBit_bounds s.latch (s.lineLevel .pw noDrive) 0 hLegal.1 hLegal.2
    split
    case h_1 b d n hEnd => exact ⟨n, by have := (hBit b d n hEnd).1; omega, rfl⟩
    case h_2 n hEnd => exact ⟨n, by have := (hOverflow n hEnd).1; omega, by split <;> rfl⟩
    case h_3 e hEnd => exact ⟨e + 1, Nat.le_add_left _ _, rfl⟩

theorem lineBody_pwFrame (s : State) {sel : BitVec 4} (hSel : sel.toNat ≤ 1) :
    ∃ legal body, LineBody (.pwFrame sel) s .pw legal body := by
  refine ⟨_, _, commandReport_pwFrame s hSel, pwFrameTiming_eq_true_iff sel _, ?code, fun hLegal => ?ticks⟩
  case code =>
    rw [frameBody]
    cases syncPhase s.latch (s.frameLine sel) (frameSyncStart sel s.latch) with
    | noDevice last => simp [frameAfterSync, bodyCodes]
    | synced next =>
      rw [frameAfterSync]
      cases measureBits s.latch (s.frameLine sel) 40 next [] false <;>
        simp [FrameEnd.report, bodyCodes]
  case ticks =>
    obtain ⟨hSync, hMax, -⟩ := hLegal
    obtain ⟨d, hPos, -, hTicks⟩ := frameBody_ticks (s.frameLine sel) (frameSyncStart sel s.latch) hSync hMax
    exact ⟨d, hPos, hTicks⟩

theorem writeSlotLen_pos {L : Latch} (b : Bool) (h1 : 1 ≤ L.tW1l.toNat) (h0 : 1 ≤ L.tW0l.toNat) : 1 ≤ writeSlotLen L b := by
  cases b with
  | true => exact h1.trans (Nat.le_add_right _ _)
  | false => exact h0.trans (Nat.le_add_right _ _)

theorem writeSlotStart_succ_pos {L : Latch} (v : Byte) (k : Nat) (h1 : 1 ≤ L.tW1l.toNat) (h0 : 1 ≤ L.tW0l.toNat) :
    1 ≤ writeSlotStart L v (k + 1) :=
  (writeSlotLen_pos _ h1 h0).trans (Nat.le_add_left _ _)

/-- Every well-formed line command is its checks and a body (60_exceptions.md R351). -/
theorem exists_lineBody {i : Instr} {x : Line} (s : State) (hWellFormed : i.WellFormed) (hLine : lineOf i = some x) :
    ∃ legal body, LineBody i s x legal body := by
  cases i with
  | owReset =>
    cases hLine
    exact ⟨_, _, rfl, owResetTiming_eq_true_iff _, List.mem_singleton_self _, fun ⟨hRstl, _⟩ => ⟨_, by omega, rfl⟩⟩
  | owWrbit =>
    cases hLine
    exact ⟨_, _, rfl, owWriteTiming_eq_true_iff _, List.mem_singleton_self _,
      fun ⟨hW1l, _, hW0l, _⟩ => ⟨_, writeSlotLen_pos _ hW1l hW0l, rfl⟩⟩
  | owWrbyte =>
    cases hLine
    exact ⟨_, _, rfl, owWriteTiming_eq_true_iff _, List.mem_singleton_self _,
      fun ⟨hW1l, _, hW0l, _⟩ => ⟨_, writeSlotStart_succ_pos _ 7 hW1l hW0l, rfl⟩⟩
  | owRdbit =>
    cases hLine
    exact ⟨_, _, rfl, owReadTiming_eq_true_iff _, List.mem_singleton_self _, fun ⟨_, hSlot⟩ => ⟨_, by omega, rfl⟩⟩
  | owRdbyte =>
    cases hLine
    exact ⟨_, _, rfl, owReadTiming_eq_true_iff _, List.mem_singleton_self _, fun ⟨_, hSlot⟩ => ⟨_, by omega, rfl⟩⟩
  | pwSync => cases hLine; exact lineBody_pwSync s
  | pwBit => cases hLine; exact lineBody_pwBit s
  | pwFrame sel => cases hLine; exact lineBody_pwFrame s (of_decide_eq_true hWellFormed)
  | _ => nomatch hLine

/-- Settles O55: SEL before all; then the checks of a line command in order, and no check of a compute command. -/
theorem checksComeInOrder : Obligations.ChecksComeInOrder := by
  refine fun i s => ⟨_, exec_eq i s, fun hIllFormed => ?illegal, fun hWellFormed x hLine => ?line,
    fun hWellFormed hCompute => ?compute⟩
  all_goals rw [State.finish_err]
  case illegal =>
    rw [commandReport_of_not_wellFormed s hIllFormed]
    exact ⟨rfl, rfl⟩
  case compute =>
    have hCode := computeReport_code_mem s hWellFormed hCompute
    exact ⟨fun h => illegal_notMem_bodyCodes i (h ▸ hCode), fun h => badcfg_notMem_bodyCodes i (h ▸ hCode),
      commandReport_ticks_compute s hCompute⟩
  case line =>
    obtain ⟨legal, body, hReport, hLegal, hCode, hTicks⟩ := exists_lineBody s hWellFormed hLine
    rw [hReport]
    refine ⟨fun hBad => ?_, fun hFree hTiming => ?_⟩
    · have hRaise : s.lineCommand x legal body = .raise .badcfg := by
        rcases hBad with hDriven | hTiming
        · exact State.lineCommand_driven legal body hDriven
        · rw [eq_false_of_ne_true (mt hLegal.1 hTiming)]
          exact s.lineCommand_illegal x body
      rw [hRaise]
      exact ⟨rfl, rfl⟩
    · rw [hLegal.2 hTiming, State.lineCommand_legal body hFree]
      exact ⟨fun h => illegal_notMem_bodyCodes i (h ▸ hCode), fun h => badcfg_notMem_bodyCodes i (h ▸ hCode), hTicks hTiming⟩

/-- The code of any command: ILLEGAL of an ill-formed one, BADCFG of a line command, or one of its body. -/
theorem commandReport_code_cases (i : Instr) (s : State) :
    ((commandReport i s).code = .illegal ∧ ¬ i.WellFormed) ∨ ((commandReport i s).code = .badcfg ∧ ∃ x, lineOf i = some x) ∨
      (commandReport i s).code ∈ bodyCodes i := by
  by_cases hWellFormed : i.WellFormed
  · cases hLine : lineOf i with
    | none => exact .inr (.inr (computeReport_code_mem s hWellFormed hLine))
    | some x =>
      obtain ⟨legal, body, hReport, -, hCode, -⟩ := exists_lineBody s hWellFormed hLine
      rw [hReport]
      rcases s.lineCommand_cases x legal body with hRaise | hBody
      · exact .inr (.inl ⟨congrArg Report.code hRaise, x, rfl⟩)
      · rw [hBody]
        exact .inr (.inr hCode)
  · exact .inl ⟨congrArg Report.code (commandReport_of_not_wellFormed s hWellFormed), hWellFormed⟩

theorem mem_bodyCodes_of_code {i : Instr} {s : State} {code : ErrCode} (h : (commandReport i s).code = code)
    (hIllegal : code ≠ .illegal) (hBadcfg : code ≠ .badcfg) : code ∈ bodyCodes i := by
  rcases commandReport_code_cases i s with ⟨hCode, -⟩ | ⟨hCode, -⟩ | hCode
  · exact absurd (h.symm.trans hCode) hIllegal
  · exact absurd (h.symm.trans hCode) hBadcfg
  · exact h ▸ hCode

/-- 7 is no code (60_exceptions.md R350). -/
theorem ErrCode.code_ne_seven (e : ErrCode) : e.code ≠ 7#3 := by cases e <;> decide

/-- Settles O56: the numbers by their definition, and each code by the commands whose body lists it. -/
theorem errorCodesByCommand : Obligations.ErrorCodesByCommand := by
  refine ⟨⟨rfl, rfl, rfl, rfl, rfl, rfl, rfl, ErrCode.code_ne_seven⟩, fun i s t hExec => ?_⟩
  cases (exec_eq i s).symm.trans hExec
  rw [State.finish_err]
  refine ⟨fun h => ?nodev, fun h => ?corrupt, fun h => ?timeout, fun h => ?invalid, fun h => ?badcfg, fun h => ?illegal⟩
  case badcfg =>
    rcases commandReport_code_cases i s with ⟨hCode, -⟩ | ⟨-, hLine⟩ | hCode
    · cases h.symm.trans hCode
    · exact hLine
    · exact absurd (h ▸ hCode) (badcfg_notMem_bodyCodes i)
  case illegal =>
    rcases commandReport_code_cases i s with ⟨-, hIllFormed⟩ | ⟨hCode, -⟩ | hCode
    · exact hIllFormed
    · cases h.symm.trans hCode
    · exact absurd (h ▸ hCode) (illegal_notMem_bodyCodes i)
  all_goals
    have hMem := mem_bodyCodes_of_code h (by decide) (by decide)
    cases i <;> simp [bodyCodes] at hMem ⊢

end Sys2Proof.Machine
end

section
/-! A run reads the line only at ticks before its end (40_common.md R158, R162): each primitive by the tick after its last one, then
the commands. -/

namespace Sys2Proof.Machine

/-- The tick after the last one a bounded wait examines. -/
def WaitEnd.ticks : WaitEnd → Nat
  | .found t => t + 1
  | .expired last => last + 1

theorem le_ticks_waitLevel (line : Nat → Bool) (lvl : Bool) (s b : Nat) : s ≤ (waitLevel line lvl s b).ticks := by
  rcases waitLevel_cases line lvl b s with ⟨t, hEnd, ⟨hFrom, -⟩, -⟩ | ⟨hEnd, -⟩
  · rw [hEnd]
    exact hFrom.trans (Nat.le_succ t)
  · rw [hEnd]
    simp only [WaitEnd.ticks]
    omega

theorem le_ticks_measureBit (L : Latch) (line : Nat → Bool) (s : Nat) : s ≤ (measureBit L line s).ticks := by
  have hFirst := le_ticks_waitLevel line true s L.tSync.toNat
  unfold measureBit
  cases h1 : waitLevel line true s L.tSync.toNat with
  | expired last =>
    rw [h1] at hFirst
    exact hFirst
  | found r =>
    rw [h1] at hFirst
    have hSecond := le_ticks_waitLevel line false (r + 1) L.tPwmax.toNat
    have hBoth := hFirst.trans hSecond
    cases h2 : waitLevel line false (r + 1) L.tPwmax.toNat with
    | expired last => simp only [h2] at hBoth ⊢; exact hBoth
    | found q => simp only [h2] at hBoth ⊢; exact hBoth

theorem le_ticks_measureBits (L : Latch) (line : Nat → Bool) (n s : Nat) (bits : List Bool) (ovf : Bool) :
    s ≤ (measureBits L line n s bits ovf).ticks := by
  induction n generalizing s bits ovf with
  | zero => exact le_rfl
  | succ n ih =>
    have hFirst := le_ticks_measureBit L line s
    unfold measureBits
    cases h1 : measureBit L line s with
    | bit b d next => rw [h1] at hFirst; exact hFirst.trans (ih next _ _)
    | startTimeout last => rw [h1] at hFirst; exact hFirst
    | overflow next =>
      rw [h1] at hFirst
      cases L.toz with
      | true => exact hFirst.trans (ih next _ _)
      | false => exact hFirst

section
variable {line line' : Nat → Bool} {e : Nat}

/-- A bounded wait that ends by tick `e` is the same on a line with the same levels before `e`. -/
theorem waitLevel_same (hLine : ∀ t, t < e → line t = line' t) {lvl : Bool} {s b : Nat}
    (hEnd : (waitLevel line lvl s b).ticks ≤ e) : waitLevel line' lvl s b = waitLevel line lvl s b := by
  refine waitLevel_congr lvl b s e (fun t _ ht => hLine t ht) (fun t hFound => ?_) fun hExpired => ?_
  · rw [hFound] at hEnd
    exact hEnd
  · rw [hExpired] at hEnd
    simp only [WaitEnd.ticks] at hEnd
    omega

theorem syncPhase_same (hLine : ∀ t, t < e → line t = line' t) {L : Latch} {s : Nat} (hEnd : (syncPhase L line s).ticks ≤ e) :
    syncPhase L line' s = syncPhase L line s := by
  unfold syncPhase at hEnd ⊢
  have hWait (lvl : Bool) (u : Nat) := waitLevel_same hLine (lvl := lvl) (s := u) (b := L.tSync.toNat)
  have hFrom (lvl : Bool) (u : Nat) := le_ticks_waitLevel line lvl u L.tSync.toNat
  cases h1 : waitLevel line false s L.tSync.toNat with
  | expired last =>
    simp only [h1] at hEnd
    rw [hWait false s (by rwa [h1]), h1]
  | found t1 =>
    simp only [h1] at hEnd
    have hFrom2 := hFrom true (t1 + 1)
    cases h2 : waitLevel line true (t1 + 1) L.tSync.toNat with
    | expired last =>
      simp only [h2] at hEnd hFrom2
      rw [hWait false s (by rw [h1]; exact hFrom2.trans hEnd), h1]
      simp only [hWait true (t1 + 1) (by rwa [h2]), h2]
    | found t2 =>
      simp only [h2] at hEnd hFrom2
      have hFrom3 := hFrom false (t2 + 1)
      have hLast : (waitLevel line false (t2 + 1) L.tSync.toNat).ticks ≤ e := by
        cases h3 : waitLevel line false (t2 + 1) L.tSync.toNat with
        | expired last => simp only [h3] at hEnd; exact hEnd
        | found t3 => simp only [h3] at hEnd; exact hEnd
      have hSecond : (WaitEnd.found t2).ticks ≤ e := hFrom3.trans hLast
      rw [hWait false s (by rw [h1]; exact hFrom2.trans hSecond), h1]
      simp only [hWait true (t1 + 1) (by rwa [h2]), h2, hWait false (t2 + 1) hLast]

theorem measureBit_same (hLine : ∀ t, t < e → line t = line' t) {L : Latch} {s : Nat} (hEnd : (measureBit L line s).ticks ≤ e) :
    measureBit L line' s = measureBit L line s := by
  unfold measureBit at hEnd ⊢
  cases h1 : waitLevel line true s L.tSync.toNat with
  | expired last =>
    simp only [h1] at hEnd
    rw [waitLevel_same hLine (by rwa [h1]), h1]
  | found r =>
    simp only [h1] at hEnd
    have hLast : (waitLevel line false (r + 1) L.tPwmax.toNat).ticks ≤ e := by
      cases h2 : waitLevel line false (r + 1) L.tPwmax.toNat with
      | expired last => simp only [h2] at hEnd; exact hEnd
      | found q => simp only [h2] at hEnd; exact hEnd
    have hFirst : (WaitEnd.found r).ticks ≤ e := (le_ticks_waitLevel line false (r + 1) L.tPwmax.toNat).trans hLast
    rw [waitLevel_same hLine (by rwa [h1]), h1]
    simp only [waitLevel_same hLine hLast]

theorem measureBits_same (hLine : ∀ t, t < e → line t = line' t) {L : Latch} {n s : Nat} {bits : List Bool} {ovf : Bool}
    (hEnd : (measureBits L line n s bits ovf).ticks ≤ e) :
    measureBits L line' n s bits ovf = measureBits L line n s bits ovf := by
  induction n generalizing s bits ovf with
  | zero => rfl
  | succ n ih =>
    unfold measureBits at hEnd ⊢
    cases h1 : measureBit L line s with
    | bit b d next =>
      simp only [h1] at hEnd
      have hFirst := (le_ticks_measureBits L line n next (bits ++ [b]) ovf).trans hEnd
      rw [measureBit_same hLine (by rwa [h1]), h1]
      exact ih hEnd
    | overflow next =>
      simp only [h1] at hEnd
      cases hToz : L.toz with
      | true =>
        simp only [hToz, if_true] at hEnd
        have hFirst := (le_ticks_measureBits L line n next (bits ++ [false]) true).trans hEnd
        rw [measureBit_same hLine (by rwa [h1]), h1]
        exact ih hEnd
      | false =>
        simp only [hToz, Bool.false_eq_true, if_false] at hEnd
        rw [measureBit_same hLine (by rwa [h1]), h1]
        rfl
    | startTimeout last =>
      simp only [h1] at hEnd
      rw [measureBit_same hLine (by rwa [h1]), h1]

/-- The body of PW_FRAME ends no earlier than its Sync. -/
theorem frameBody_same (hLine : ∀ t, t < e → line t = line' t) {L : Latch} {s : Nat}
    (hTicks : (frameBody L line s).ticks = some e) : frameBody L line' s = frameBody L line s := by
  unfold frameBody at hTicks ⊢
  cases h1 : syncPhase L line s with
  | noDevice last =>
    rw [h1] at hTicks
    cases hTicks
    rw [syncPhase_same hLine (by rw [h1]; exact le_rfl), h1]
    rfl
  | synced next =>
    rw [h1, frameAfterSync, FrameEnd.report_ticks] at hTicks
    cases hTicks
    have hSync : (SyncEnd.synced next).ticks ≤ (measureBits L line 40 next [] false).ticks := le_ticks_measureBits L line 40 next [] false
    rw [syncPhase_same hLine (by rwa [h1]), h1, frameAfterSync, frameAfterSync, measureBits_same hLine le_rfl]

end

/-- A line command ends alike in two states with the same manual drive, where its body does whenever it is run with ticks. -/
theorem lineCommand_same {s s' : State} {x : Line} {legal : Bool} {body body' : Report} {d : Nat}
    (hManual : s'.manualDrive x = s.manualDrive x) (hTicks : (s.lineCommand x legal body).ticks = some d)
    (hBody : legal = true → body.ticks = some d → body' = body) :
    s'.lineCommand x legal body' = s.lineCommand x legal body := by
  obtain ⟨hLegal, hSome⟩ := State.lineCommand_ticks hTicks
  rw [State.lineCommand, State.lineCommand, hManual, hBody hLegal hSome]

/-- Every sample of a byte read falls before the end of its last slot (41_single_wire.md R206). -/
theorem readByte_congr {L : Latch} {line line' : Nat → Bool} (hSlot : L.tRl.toNat + L.tRs.toNat + 1 ≤ L.tRslot.toNat)
    (hLine : ∀ t, t < 8 * L.tRslot.toNat → line' t = line t) : readByte L line' = readByte L line := by
  refine BitVec.eq_of_getLsbD_eq fun k hk => ?_
  rw [readByte_getLsbD _ _ k hk, readByte_getLsbD _ _ k hk]
  refine hLine _ ?_
  have hSlots : (k + 1) * L.tRslot.toNat ≤ 8 * L.tRslot.toNat := Nat.mul_le_mul_right _ hk
  rw [Nat.succ_mul] at hSlots
  simp only [readSampleTick]
  omega

/-- Settles O49: a compute command has no tick; each line command samples its line before its last tick. -/
theorem levelsPastTheEndDoNotMatter : Obligations.LevelsPastTheEndDoNotMatter := by
  intro i s s' d hLatch hOw hPw hTicks hExt
  have hManual (x : Line) : s'.manualDrive x = s.manualDrive x := (manualDrive_congr hOw hPw x).symm
  have hLine (x : Line) (drv : Nat → Bool) (t : Nat) (ht : t < d) : s.lineLevel x drv t = s'.lineLevel x drv t := by
    rw [State.lineLevel, State.lineLevel, hExt x t ht]
  cases i with
  | nop | bcdDec | bcdEnc | dow | chkCrc8 | chkSum8 => exact (commandReport_compute_congr rfl hLatch).symm
  | owWrbit =>
    simp only [commandReport, owWrbitReport, ← hLatch] at hTicks ⊢
    exact lineCommand_same (hManual _) hTicks fun _ _ => rfl
  | owWrbyte =>
    simp only [commandReport, owWrbyteReport, ← hLatch] at hTicks ⊢
    exact lineCommand_same (hManual _) hTicks fun _ _ => rfl
  | owReset =>
    simp only [commandReport, owResetReport, ← hLatch] at hTicks ⊢
    refine lineCommand_same (hManual _) hTicks fun hLegal hSome => ?_
    obtain ⟨-, hRrec⟩ := (owResetTiming_eq_true_iff _).1 hLegal
    have hEnd := Option.some.inj hSome
    rw [hLine .ow _ _ (by omega)]
  | owRdbit =>
    simp only [commandReport, owRdbitReport, ← hLatch] at hTicks ⊢
    refine lineCommand_same (hManual _) hTicks fun hLegal hSome => ?_
    obtain ⟨-, hSlot⟩ := (owReadTiming_eq_true_iff _).1 hLegal
    have hEnd := Option.some.inj hSome
    rw [hLine .ow _ _ (by simp only [readSampleTick]; omega)]
  | owRdbyte j =>
    simp only [commandReport, owRdbyteReport, ← hLatch] at hTicks ⊢
    refine lineCommand_same (hManual _) hTicks fun hLegal hSome => ?_
    obtain ⟨-, hSlot⟩ := (owReadTiming_eq_true_iff _).1 hLegal
    have hEnd := Option.some.inj hSome
    rw [readByte_congr hSlot fun t ht => (hLine .ow _ t (by omega)).symm]
  | pwSync =>
    obtain ⟨-, hEnd⟩ := pwSync_ticks hTicks
    simp only [commandReport, pwSyncReport, ← hLatch] at hTicks ⊢
    refine lineCommand_same (hManual _) hTicks fun _ _ => ?_
    rw [syncPhase_same (hLine .pw noDrive) hEnd.le]
  | pwBit =>
    obtain ⟨-, hEnd⟩ := pwBit_ticks hTicks
    simp only [commandReport, pwBitReport, ← hLatch] at hTicks ⊢
    refine lineCommand_same (hManual _) hTicks fun _ _ => ?_
    rw [measureBit_same (hLine .pw noDrive) hEnd.le]
  | pwFrame sel =>
    by_cases hSel : sel.toNat ≤ 1
    · rw [commandReport_pwFrame s hSel] at hTicks
      rw [commandReport_pwFrame s hSel, commandReport_pwFrame s' hSel, State.frameLine, State.frameLine, ← hLatch]
      exact lineCommand_same (hManual _) hTicks fun _ hSome => frameBody_same (hLine .pw _) hSome
    · rw [commandReport_of_not_wellFormed (i := .pwFrame sel) s fun h => hSel (of_decide_eq_true h)] at hTicks
      cases hTicks

end Sys2Proof.Machine
end

section
/-! The codec's round trip on commands (43_bcd.md R283) and the calendar behind the day-of-week formula (44_day_of_week.md R314). -/

namespace Sys2Proof.Machine

/-- The century a field adds to its two digits: 2000 for YEAR (43_bcd.md R280). -/
def bcdCentury (sel : BitVec 4) : Nat := if sel = 7#4 then 2000 else 0

/-- Without its century every value in a field's range has two digits; the range of SEC ends at 59 (43_bcd.md R280). -/
theorem bcdRange_twoDigits : ∀ sel : BitVec 4, sel.toNat ≤ 7 →
    bcdCentury sel ≤ (bcdRanges.getD sel.toNat (1, 0)).1 ∧ (bcdRanges.getD sel.toNat (1, 0)).2 ≤ bcdCentury sel + 99 := by
  decide

theorem InBcdRange.twoDigits {sel : BitVec 4} {v : Nat} (hSel : sel.toNat ≤ 7) (h : InBcdRange sel.toNat v) :
    bcdCentury sel ≤ v ∧ v - bcdCentury sel ≤ 99 := by
  obtain ⟨hLo, hHi⟩ := bcdRange_twoDigits sel hSel
  obtain ⟨hFrom, hTo⟩ := h
  exact ⟨hLo.trans hFrom, by omega⟩

/-- A completion with OK puts its value into RESULT. -/
theorem result_of_exec_ok {i : Instr} {s t : State} {v : Word} (h : exec i s = .next (s.completedWith .ok false v s.dbuf))
    (hExec : exec i s = .next t) : t.err = .ok ∧ t.result = v := by
  cases h.symm.trans hExec
  exact ⟨rfl, rfl⟩

/-- The low seven or eight bits of a word, as the mask of R283 keeps them. -/
theorem word_and_mask (w : Word) (p : Prop) [Decidable p] :
    w &&& (if p then 0x0000007F#32 else 0x000000FF#32) =
      BitVec.ofNat 32 (if p then w.toNat % 256 % 128 else w.toNat % 256) := by
  have h7 : w.toNat &&& 127 = w.toNat % 128 := Nat.and_two_pow_sub_one_eq_mod w.toNat 7
  have h8 : w.toNat &&& 255 = w.toNat % 256 := Nat.and_two_pow_sub_one_eq_mod w.toNat 8
  apply BitVec.eq_of_toNat_eq
  by_cases hp : p
  · simp only [hp, if_true, BitVec.toNat_and, BitVec.toNat_ofNat, Nat.reduceMod, Nat.reducePow, h7]
    omega
  · simp only [hp, if_false, BitVec.toNat_and, BitVec.toNat_ofNat, Nat.reduceMod, Nat.reducePow, h8]
    omega

theorem bcdToDec_decToBcd {u : Nat} : bcdToDec (decToBcd u) = u := by
  unfold bcdToDec decToBcd
  omega

theorem decToBcd_bcdToDec {b : Nat} (hLow : b % 16 ≤ 9) : decToBcd (bcdToDec b) = b := by
  unfold bcdToDec decToBcd
  omega

theorem decToBcd_digits {u : Nat} (h : u ≤ 99) : decToBcd u < 256 ∧ decToBcd u / 16 ≤ 9 ∧ decToBcd u % 16 ≤ 9 := by
  unfold decToBcd
  omega

/-- BCD_ENC on a value in range, its digits without the century (43_bcd.md R282). -/
theorem exec_bcdEnc {sel : BitVec 4} {s : State} {v u : Nat} (hSel : sel.toNat ≤ 7) (hArg : s.latch.arg0.toNat = v)
    (hDigits : v - bcdCentury sel = u) (hRange : InBcdRange sel.toNat v) :
    exec (.bcdEnc sel) s = .next (s.completedWith .ok false (BitVec.ofNat 32 (decToBcd u)) s.dbuf) ∧
      (sel = 1#4 → decToBcd u < 128) := by
  subst hArg hDigits
  obtain ⟨-, -, hLegal⟩ := bcdEncChecksAndEncodes
  exact (hLegal s sel hSel).1 hRange

/-- BCD_DEC on a byte, masked where the field is SEC: it accepts two decimal digits with a value in range (43_bcd.md R281). -/
theorem exec_bcdDec {sel : BitVec 4} {s : State} {b v : Nat} (hSel : sel.toNat ≤ 7)
    (hByte : (if sel = 1#4 then s.latch.arg0.toNat % 256 % 128 else s.latch.arg0.toNat % 256) = b)
    (hValue : bcdCentury sel + bcdToDec b = v) :
    (b / 16 ≤ 9 → b % 16 ≤ 9 → InBcdRange sel.toNat v →
        exec (.bcdDec sel) s = .next (s.completedWith .ok false (BitVec.ofNat 32 v) s.dbuf)) ∧
      (¬ (b / 16 ≤ 9 ∧ b % 16 ≤ 9 ∧ InBcdRange sel.toNat v) →
        exec (.bcdDec sel) s = .next (s.completedWith .invalid false s.result s.dbuf)) := by
  subst hByte hValue
  obtain ⟨-, -, hLegal⟩ := bcdDecChecksAndDecodes
  exact hLegal s sel hSel

/-- What BCD_ENC puts into RESULT, BCD_DEC takes back (43_bcd.md R283). -/
theorem bcdDec_of_bcdEnc {sel : BitVec 4} {s s' t : State} (hSel : sel.toNat ≤ 7)
    (hRange : InBcdRange sel.toNat s.latch.arg0.toNat) (hExec : exec (.bcdEnc sel) s = .next t) (hArg : s'.latch.arg0 = t.result) :
    t.err = .ok ∧ ∃ t', exec (.bcdDec sel) s' = .next t' ∧ t'.err = .ok ∧ t'.result = s.latch.arg0 := by
  obtain ⟨hEnc, hHalt⟩ := exec_bcdEnc hSel rfl rfl hRange
  obtain ⟨hErr, hResult⟩ := result_of_exec_ok hEnc hExec
  obtain ⟨hBase, hTwo⟩ := hRange.twoDigits hSel
  generalize hDigits : s.latch.arg0.toNat - bcdCentury sel = u at *
  obtain ⟨hByte, hHigh, hLow⟩ := decToBcd_digits hTwo
  have hWord : s'.latch.arg0.toNat = decToBcd u := by
    rw [hArg, hResult, BitVec.toNat_ofNat]
    omega
  have hMasked : (if sel = 1#4 then s'.latch.arg0.toNat % 256 % 128 else s'.latch.arg0.toNat % 256) = decToBcd u := by
    rw [hWord]
    split
    case isTrue hSec => have := hHalt hSec; omega
    case isFalse => omega
  have hValue : bcdCentury sel + bcdToDec (decToBcd u) = s.latch.arg0.toNat := by
    rw [bcdToDec_decToBcd]
    omega
  refine ⟨hErr, _, (exec_bcdDec hSel hMasked hValue).1 hHigh hLow hRange, rfl, ?_⟩
  exact (BitVec.ofNat_toNat 32 _).trans (BitVec.setWidth_eq _)

/-- What BCD_DEC accepted, BCD_ENC gives back, but for the clock-halt bit (43_bcd.md R283). -/
theorem bcdEnc_of_bcdDec {sel : BitVec 4} {s s' t : State} (hSel : sel.toNat ≤ 7) (hExec : exec (.bcdDec sel) s = .next t)
    (hErr : t.err = .ok) (hArg : s'.latch.arg0 = t.result) :
    ∃ t', exec (.bcdEnc sel) s' = .next t' ∧ t'.err = .ok ∧
      t'.result = s.latch.arg0 &&& (if sel = 1#4 then 0x0000007F#32 else 0x000000FF#32) := by
  generalize hByte : (if sel = 1#4 then s.latch.arg0.toNat % 256 % 128 else s.latch.arg0.toNat % 256) = b
  obtain ⟨hOk, hInvalid⟩ := exec_bcdDec hSel hByte rfl
  have hAccepted : b / 16 ≤ 9 ∧ b % 16 ≤ 9 ∧ InBcdRange sel.toNat (bcdCentury sel + bcdToDec b) := by
    by_contra hNot
    cases (hInvalid hNot).symm.trans hExec
    cases hErr
  obtain ⟨hHigh, hLow, hRange⟩ := hAccepted
  obtain ⟨-, hResult⟩ := result_of_exec_ok (hOk hHigh hLow hRange) hExec
  have hCentury : bcdCentury sel ≤ 2000 := by unfold bcdCentury; split <;> omega
  have hWord : s'.latch.arg0.toNat = bcdCentury sel + bcdToDec b := by
    rw [hArg, hResult, BitVec.toNat_ofNat, bcdToDec]
    omega
  obtain ⟨hEnc, -⟩ := exec_bcdEnc hSel hWord (Nat.add_sub_cancel_left _ _) hRange
  refine ⟨_, hEnc, rfl, ?_⟩
  rw [word_and_mask, hByte]
  exact congrArg (BitVec.ofNat 32) (decToBcd_bcdToDec hLow)

/-- Settles O29: the encoder and the decoder of two decimal digits undo each other, with the century put on and off. -/
theorem bcdRoundTrip : Obligations.BcdRoundTrip :=
  ⟨fun _ _ _ _ hSel hRange hExec hArg => bcdDec_of_bcdEnc hSel hRange hExec hArg,
    fun _ _ _ _ hSel hExec hErr hArg => bcdEnc_of_bcdDec hSel hExec hErr hArg⟩

/-- A year has one day more when it is a leap year. -/
theorem daysBeforeYear_succ {y : Nat} (h : 1 ≤ y) :
    daysBeforeYear (y + 1) = daysBeforeYear y + if leapYear y then 366 else 365 := by
  obtain ⟨z, rfl⟩ : ∃ z, y = z + 1 := ⟨y - 1, by omega⟩
  rfl

theorem leapYear_eq_true_iff (y : Nat) : leapYear y = true ↔ y % 4 = 0 ∧ (y % 100 ≠ 0 ∨ y % 400 = 0) := by simp [leapYear]

/-- Days in the years 1 to `y`: a day more every fourth year, but for three in four centuries (44_day_of_week.md R314). -/
theorem daysBeforeYear_closed (y : Nat) : daysBeforeYear (y + 1) + y / 100 = 365 * y + y / 4 + y / 400 := by
  induction y with
  | zero => rfl
  | succ y ih =>
    rw [daysBeforeYear_succ (Nat.le_add_left 1 y)]
    have hLeap := leapYear_eq_true_iff (y + 1)
    cases hCase : leapYear (y + 1) with
    | true =>
      have := hLeap.1 hCase
      simp only [if_true]
      omega
    | false =>
      have := mt hLeap.2 (by simp [hCase])
      simp only [Bool.false_eq_true, if_false]
      omega

/-- Zeller's century terms count the days of the years before, modulo 7 (44_day_of_week.md R310). -/
theorem zeller_mod (y m d : Nat) : (zeller y m d + 5) % 7 = (daysBeforeYear (y + 1) + 13 * (m + 1) / 5 + d + 5) % 7 := by
  have hYears := daysBeforeYear_closed y
  have hFourths : y / 4 = 25 * (y / 100) + y % 100 / 4 := by omega
  have hEras : y / 400 = y / 100 / 4 := (Nat.div_div_eq_div_mul y 100 4).symm
  have hCenturies := Nat.div_add_mod y 100
  unfold zeller
  generalize 13 * (m + 1) / 5 = months
  rw [hFourths, hEras] at hYears
  generalize y / 100 / 4 = era at *
  generalize y % 100 / 4 = fourth at *
  omega

/-- Zeller's month term counts the days of the months before, modulo 7: of January and February as months 13 and 14 of the year
before, of the others past the leap day (44_day_of_week.md R310). -/
theorem daysBeforeMonth_mod (y : Nat) {m : Nat} (hFrom : 1 ≤ m) (hTo : m ≤ 12) :
    (daysBeforeMonth y m + 1) % 7 =
      if m < 3 then (13 * (m + 12 + 1) / 5) % 7 else ((if leapYear y then 366 else 365) + 13 * (m + 1) / 5) % 7 := by
  cases hLeap : leapYear y <;> interval_cases m <;> simp [daysBeforeMonth, monthLength, hLeap]

/-- Settles O32: the years before by `zeller_mod`, the months before by `daysBeforeMonth_mod`. -/
theorem dowIsProlepticGregorian : Obligations.DowIsProlepticGregorian := by
  intro y m d hYear _ hMonth hMonthTo hDay _
  have hMonths := daysBeforeMonth_mod y hMonth hMonthTo
  rw [dayOfWeek_eq_zeller, zeller_mod]
  by_cases hEarly : m < 3
  · rw [if_pos hEarly] at hMonths
    rw [if_pos hEarly, if_pos hEarly, Nat.sub_add_cancel hYear]
    omega
  · rw [if_neg hEarly] at hMonths
    rw [if_neg hEarly, if_neg hEarly, daysBeforeYear_succ hYear]
    omega

end Sys2Proof.Machine
end

section
/-! What the checksum validators detect (45_checksum.md R330 to R335): the CRC register takes different bytes to different values,
and a flipped bit moves the sum by a power of two. -/

namespace Sys2Proof.Machine

/-- The CRC register takes different bytes to different values (45_checksum.md R330). -/
theorem crcByte_right_inj {c x y : Byte} : crcByte c x = crcByte c y ↔ x = y := by
  rw [crcByte_fold c x, crcByte_fold c y, crcByte_left_inj, BitVec.xor_right_inj]

theorem foldl_crcByte_left_inj (bytes : List Byte) {c d : Byte} : bytes.foldl crcByte c = bytes.foldl crcByte d ↔ c = d := by
  induction bytes generalizing c d with
  | nil => rfl
  | cons x bytes ih => rw [List.foldl_cons, List.foldl_cons, ih, crcByte_left_inj]

/-- The CRC of bytes with one of them replaced is the same only where it is replaced by itself (45_checksum.md R334). -/
theorem crc8_set_eq_iff {bytes : List Byte} {j : Nat} (hj : j < bytes.length) (x : Byte) :
    crc8 (bytes.set j x) = crc8 bytes ↔ x = bytes[j] := by
  have hSplit : bytes = bytes.take j ++ bytes[j] :: bytes.drop (j + 1) := by simp
  rw [List.set_eq_take_append_cons_drop, if_pos hj]
  conv_lhs => rhs; rw [hSplit]
  simp only [crc8, List.foldl_append, List.foldl_cons, foldl_crcByte_left_inj, crcByte_right_inj]

/-- A flipped bit is another byte. -/
theorem flip_ne (b : Byte) {k : Nat} (hk : k < 8) : b ^^^ (1#8 <<< k) ≠ b := by
  intro h
  have hBit := congrArg (·.getLsbD k) h
  simp [hk] at hBit

theorem crc8_flip_ne {bytes : List Byte} {j k : Nat} (hj : j < bytes.length) (hk : k < 8) :
    crc8 (bytes.set j (bytes[j] ^^^ (1#8 <<< k))) ≠ crc8 bytes := by
  rw [ne_eq, crc8_set_eq_iff hj]
  exact flip_ne _ hk

/-- The CRC register over KIWI's nine-byte frame, bit by bit (45_checksum.md R334). -/
theorem crc8_kiwiFrame : crc8 [0x50#8, 0x05#8, 0x4B#8, 0x46#8, 0x7F#8, 0xFF#8, 0x0C#8, 0x10#8, 0x1C#8] = 0#8 := by
  simp [crc8, crcByte, crcBits, crcShift]

/-- Settles O35: the residue of the last byte, and the frame's CRC of 0, which no flipped bit keeps. -/
theorem crcResidueIsZero : Obligations.CrcResidueIsZero := by
  refine ⟨fun bytes => ?residue, fun frame hFrame => ?flips⟩
  case residue => rw [crc8_append_singleton, crcByte_self]
  case flips =>
    have hZero : crc8 frame = 0#8 := by rw [hFrame, crc8_kiwiFrame]
    have hLength : frame.length = 9 := by rw [hFrame]; rfl
    refine ⟨hZero, fun j k hj hk => ?_⟩
    have hj' : j < frame.length := hLength ▸ hj
    rw [List.modify_eq_set_getElem?, List.getElem?_eq_getElem hj', ← hZero]
    exact crc8_flip_ne hj' hk

/-- The bytes a checksum command covers after a byte of the latched frame is replaced. -/
theorem Latch.frame_of_set {L L' : Latch} {j : Nat} {hj : j < 16} {x : Byte} (h : L'.dbuf = L.dbuf.set j x hj) (n : BitVec 4) :
    L'.frame n = (L.frame n).set j x := by
  rw [Latch.frame, Latch.frame, h, Vector.toList_set, List.take_set]

theorem Latch.frame_length (L : Latch) (n : BitVec 4) : (L.frame n).length = n.toNat := by
  have := n.isLt
  simp [Latch.frame]
  omega

theorem Latch.frame_getElem (L : Latch) {n : BitVec 4} {j : Nat} (hj : j < 16) (hn : j < (L.frame n).length) :
    (L.frame n)[j] = L.dbuf[j] := by
  simp [Latch.frame]

theorem Latch.checkByte_of_set {L L' : Latch} {j : Nat} {hj : j < 16} {x : Byte} (h : L'.dbuf = L.dbuf.set j x hj) {n : BitVec 4}
    (hNe : j ≠ n.toNat) : L'.checkByte n = L.checkByte n := by
  rw [Latch.checkByte, Latch.checkByte, h]
  exact Vector.getElem_set_ne _ _ hNe

theorem Latch.checkByte_of_set_same {L L' : Latch} {n : BitVec 4} {hj : n.toNat < 16} {x : Byte}
    (h : L'.dbuf = L.dbuf.set n.toNat x hj) : L'.checkByte n = x := by
  rw [Latch.checkByte, h]
  exact Vector.getElem_set_self _

/-- A checksum command ends with OK exactly when the check byte agrees, and with CORRUPT otherwise. -/
theorem exec_checkAgainst_result {i : Instr} {s t : State} {c check : Byte} (h : commandReport i s = checkAgainst c check)
    (hExec : exec i s = .next t) :
    t.result = c.setWidth 32 ∧ (c = check → t.err = .ok) ∧ (c ≠ check → t.err = .corrupt) := by
  cases (exec_of_checkAgainst h).symm.trans hExec
  exact ⟨rfl, fun hEq => if_pos hEq, fun hNe => if_neg hNe⟩

theorem checkAgainst_of_ok {i : Instr} {s t : State} {c check : Byte} (h : commandReport i s = checkAgainst c check)
    (hExec : exec i s = .next t) (hOk : t.err = .ok) : c = check := by
  obtain ⟨-, -, hCorrupt⟩ := exec_checkAgainst_result h hExec
  by_contra hNe
  cases (hCorrupt hNe).symm.trans hOk

/-- Settles O36: a flipped covered byte changes the CRC and leaves the check byte; a flipped check byte does the reverse. -/
theorem crcDetectsSingleBitFlip : Obligations.CrcDetectsSingleBitFlip := by
  intro s s' t n j k hj hk hCovered hFlip hExec hOk
  have hAgrees : crc8 (s.latch.frame n) = s.latch.checkByte n := checkAgainst_of_ok rfl hExec hOk
  have hExec' := exec_eq (.chkCrc8 n) s'
  obtain ⟨-, -, hCorrupt⟩ := exec_checkAgainst_result (i := .chkCrc8 n) rfl hExec'
  refine ⟨_, hExec', hCorrupt ?_⟩
  have hFrame := Latch.frame_of_set hFlip n
  have hLength := s.latch.frame_length n
  rcases Nat.lt_or_eq_of_le hCovered with hByte | hCheck
  · have hIn : j < (s.latch.frame n).length := hLength ▸ hByte
    rw [hFrame, Latch.checkByte_of_set hFlip (Nat.ne_of_lt hByte), ← hAgrees, ← Latch.frame_getElem s.latch hj hIn]
    exact crc8_flip_ne hIn hk
  · subst hCheck
    rw [hFrame, List.set_eq_of_length_le hLength.le, hAgrees, Latch.checkByte_of_set_same hFlip]
    exact (flip_ne _ hk).symm

/-- Where the two have no bit in common, exclusive or adds. -/
theorem xor_eq_add_of_and_eq_zero {b m : Byte} (h : b &&& m = 0#8) : b ^^^ m = b + m := by
  rw [BitVec.add_eq_or_of_and_eq_zero _ _ h]
  refine BitVec.eq_of_getLsbD_eq fun i _ => ?_
  have hBit := congrArg (·.getLsbD i) h
  rw [BitVec.getLsbD_xor, BitVec.getLsbD_or]
  revert hBit
  simp only [BitVec.getLsbD_and, BitVec.getLsbD_zero]
  cases b.getLsbD i <;> simp

/-- A flipped bit adds its power of two where it was 0; where it was 1, the byte before is the flipped one with it added
(45_checksum.md R335). -/
theorem flip_adds_or_subtracts (b : Byte) (k : Nat) :
    b ^^^ (1#8 <<< k) = b + (1#8 <<< k) ∨ b = (b ^^^ (1#8 <<< k)) + (1#8 <<< k) := by
  rw [← BitVec.twoPow_eq]
  cases hBit : b.getLsbD k with
  | false =>
    refine .inl (xor_eq_add_of_and_eq_zero ?_)
    rw [BitVec.and_twoPow, hBit]
    rfl
  | true =>
    refine .inr (Eq.symm ?_)
    rw [← xor_eq_add_of_and_eq_zero, BitVec.xor_assoc, BitVec.xor_self, BitVec.xor_zero]
    refine BitVec.eq_of_getLsbD_eq fun i _ => ?_
    rw [BitVec.getLsbD_and, BitVec.getLsbD_xor, BitVec.getLsbD_zero]
    by_cases hEq : i = k
    · subst hEq
      rw [hBit]
      simp [BitVec.getLsbD_twoPow]
    · simp [BitVec.getLsbD_twoPow, Ne.symm hEq]

theorem sum8_cons (x : Byte) (bytes : List Byte) : sum8 (x :: bytes) = x + sum8 bytes := by
  apply BitVec.eq_of_toNat_eq
  rw [BitVec.toNat_add, toNat_sum8, toNat_sum8, List.map_cons, List.sum_cons]
  omega

/-- The sum of bytes with one of them replaced, modulo 256 (45_checksum.md R332). -/
theorem sum8_set_add {bytes : List Byte} {j : Nat} (hj : j < bytes.length) (x : Byte) :
    sum8 (bytes.set j x) + bytes[j] = sum8 bytes + x := by
  induction bytes generalizing j with
  | nil => exact absurd hj (Nat.not_lt_zero j)
  | cons y bytes ih =>
    cases j with
    | zero =>
      rw [List.set_cons_zero, List.getElem_cons_zero, sum8_cons, sum8_cons]
      ac_rfl
    | succ j =>
      rw [List.set_cons_succ, List.getElem_cons_succ, sum8_cons, sum8_cons, BitVec.add_assoc, ih, BitVec.add_assoc]

/-- A flipped bit of a covered byte moves the sum by its power of two, up or down (45_checksum.md R335). -/
theorem sum8_flip {bytes : List Byte} {j k : Nat} (hj : j < bytes.length) :
    sum8 (bytes.set j (bytes[j] ^^^ (1#8 <<< k))) = sum8 bytes + (1#8 <<< k) ∨
      sum8 bytes = sum8 (bytes.set j (bytes[j] ^^^ (1#8 <<< k))) + (1#8 <<< k) := by
  have hSum := sum8_set_add hj (bytes[j] ^^^ (1#8 <<< k))
  rcases flip_adds_or_subtracts bytes[j] k with hUp | hDown
  · left
    rw [hUp] at hSum ⊢
    exact add_right_cancel (hSum.trans (by ac_rfl))
  · right
    exact add_right_cancel (hSum.symm.trans ((congrArg (_ + ·) hDown).trans (by ac_rfl)))

theorem toNat_flipMask {k : Nat} (hk : k < 8) : (1#8 <<< k).toNat = 2 ^ k := by
  rw [← BitVec.twoPow_eq, BitVec.toNat_twoPow]
  exact Nat.mod_eq_of_lt (Nat.pow_lt_pow_right (by decide) hk)

theorem toNat_setWidth_byte (c : Byte) : (c.setWidth 32).toNat = c.toNat := by
  have := c.isLt
  rw [BitVec.toNat_setWidth]
  omega

/-- A byte moved up or down by a power of two is another byte (45_checksum.md R335). -/
theorem toNat_of_moved {c c' : Byte} {k : Nat} (hk : k < 8) (h : c' = c + (1#8 <<< k) ∨ c = c' + (1#8 <<< k)) :
    c' ≠ c ∧ (c'.toNat = (c.toNat + 2 ^ k) % 256 ∨ c'.toNat = (c.toNat + 256 - 2 ^ k) % 256) := by
  have hPow : 2 ^ k < 2 ^ 8 := Nat.pow_lt_pow_right (by decide) hk
  have hPos : 0 < 2 ^ k := Nat.two_pow_pos k
  have hLt := c.isLt
  have hLt' := c'.isLt
  have hMoved : c'.toNat = (c.toNat + 2 ^ k) % 256 ∨ c.toNat = (c'.toNat + 2 ^ k) % 256 :=
    h.imp (fun hUp => by rw [hUp, BitVec.toNat_add, toNat_flipMask hk]) fun hDown => by
      rw [hDown, BitVec.toNat_add, toNat_flipMask hk]
  refine ⟨fun hSame => ?_, by omega⟩
  rw [hSame] at hMoved
  omega

/-- Settles O37: the sum moves by a power of two, which is not 0 modulo 256, and the check byte stays. -/
theorem sumDetectsSingleBitFlip : Obligations.SumDetectsSingleBitFlip := by
  intro s s' t n j k hj hk hCovered hFlip hExec hOk
  have hAgrees : sum8 (s.latch.frame n) = s.latch.checkByte n := checkAgainst_of_ok rfl hExec hOk
  have hExec' := exec_eq (.chkSum8 n) s'
  have hIn : j < (s.latch.frame n).length := (s.latch.frame_length n).symm ▸ hCovered
  obtain ⟨hResult, -, -⟩ := exec_checkAgainst_result (i := .chkSum8 n) rfl hExec
  obtain ⟨hResult', -, hCorrupt⟩ := exec_checkAgainst_result (i := .chkSum8 n) rfl hExec'
  have hMoves := sum8_flip (k := k) hIn
  rw [Latch.frame_getElem s.latch hj hIn, ← Latch.frame_of_set hFlip n] at hMoves
  rw [Latch.checkByte_of_set hFlip (Nat.ne_of_lt hCovered), ← hAgrees] at hCorrupt
  obtain ⟨hDiffers, hMoved⟩ := toNat_of_moved hk hMoves
  refine ⟨_, hExec', hCorrupt hDiffers, ?_⟩
  rw [hResult, hResult', toNat_setWidth_byte, toNat_setWidth_byte]
  exact hMoved

end Sys2Proof.Machine
end
